-- ==== Sys2Proof/Word.lean ====
section
/-! DEFINITION. The fixed-width words of the engine (spec 00_scope.md R5, R7; 30_encoding.md R34). -/

namespace Sys2Proof

/-- A command word, `CMD_BITS` = 32 bits (R34). -/
abbrev CommandWord := BitVec 32

/-- An input value and a result register `RES[c]`: `WIDTH` = `CW` = 24 bits, unsigned (R5, R7, R14). -/
abbrev Value := BitVec 24

/-- A fan-out as the command word and `RES_K` hold it: `K_BITS` = 5 bits, unsigned (R7, R15, R36). -/
abbrev FanoutField := BitVec 5

/-- The 2-bit code of `ERR_CAUSE` (R17, R74). -/
abbrev CauseCode := BitVec 2

end Sys2Proof
end

