-- ==== Sys2Proof/Config.lean ====
section
/-! DEFINITION. What is fixed for the engine, the parameters the spec leaves open, and the free values of the items the spec
leaves unspecified (00_scope.md R5 to R7; 92_eei_decisions.md section 2; 93_implementation_defined.md U5, U7 to U9). -/

namespace Sys2Proof

/-- How the reset input acts (`RESET_KIND`, R7, D27). -/
inductive ResetKind where
  | synchronous
  | asynchronous
deriving DecidableEq, Repr, Inhabited

/-- `WIDTH`, the number of bits of the input value (R5). -/
def Config.width : Nat := 24

/-- `K_MAX`, the largest fan-out a command may carry (R6, log entry 9). -/
def Config.kMax : Nat := 24

/-- A free value: what `RES[c]` holds or reads as while it is unspecified (R23, R96, U5), for one stream of free values, one
draw of that stream and one component. It has no body, so no proof can see which value it is. Log entry 1. -/
opaque Config.unspecifiedRes : (stream draw c : Nat) → Value

/-- A free value: what `RES_K` holds or reads as while it is unspecified (R23, R96, U5). Log entry 1. -/
opaque Config.unspecifiedResK : (stream draw : Nat) → FanoutField

/-- `LATENCY`, the open number of clock cycles from acceptance to visibility (R7, R94, D14); it may differ from command to
command, as `ceil(24 / k)` does (R98). Log entry 5. -/
opaque Config.latency : CommandWord → Nat

/-- `RESET_KIND`, open (R7, D27). Log entry 5. -/
opaque Config.resetKind : ResetKind

/-- `N_ENGINES` less one; open (R7, D29). Log entry 6. -/
opaque Config.furtherEngines : Nat

/-- `N_ENGINES`, any positive number (R7, R85). -/
def Config.nEngines : Nat := Config.furtherEngines + 1

end Sys2Proof
end

