-- ==== Sys2Proof/Syntax.lean ====
section
/-! DEFINITION. The instructions: one constructor per row of spec/opcode_table.json. Each is the one instruction SPLIT (R64)
with its fan-out in its name (R44, D28); its operand is the 24-bit `VALUE` field, every value of which is legal (R37). -/

namespace Sys2Proof

/-- The instructions of the engine. A value of more than 24 bits (U1) and a fan-out outside 1..24 (U2, U3) cannot be written. -/
inductive Instr where
  | split1 (value : Value)
  | split2 (value : Value)
  | split3 (value : Value)
  | split4 (value : Value)
  | split5 (value : Value)
  | split6 (value : Value)
  | split7 (value : Value)
  | split8 (value : Value)
  | split9 (value : Value)
  | split10 (value : Value)
  | split11 (value : Value)
  | split12 (value : Value)
  | split13 (value : Value)
  | split14 (value : Value)
  | split15 (value : Value)
  | split16 (value : Value)
  | split17 (value : Value)
  | split18 (value : Value)
  | split19 (value : Value)
  | split20 (value : Value)
  | split21 (value : Value)
  | split22 (value : Value)
  | split23 (value : Value)
  | split24 (value : Value)
deriving DecidableEq, Repr

/-- The fan-out `k` of a form `SPLIT.k` (R44, R69). -/
def Instr.fanout : Instr → Nat
  | .split1 _ => 1
  | .split2 _ => 2
  | .split3 _ => 3
  | .split4 _ => 4
  | .split5 _ => 5
  | .split6 _ => 6
  | .split7 _ => 7
  | .split8 _ => 8
  | .split9 _ => 9
  | .split10 _ => 10
  | .split11 _ => 11
  | .split12 _ => 12
  | .split13 _ => 13
  | .split14 _ => 14
  | .split15 _ => 15
  | .split16 _ => 16
  | .split17 _ => 17
  | .split18 _ => 18
  | .split19 _ => 19
  | .split20 _ => 20
  | .split21 _ => 21
  | .split22 _ => 22
  | .split23 _ => 23
  | .split24 _ => 24

/-- The `value` operand (R37). -/
def Instr.value : Instr → Value
  | .split1 v => v
  | .split2 v => v
  | .split3 v => v
  | .split4 v => v
  | .split5 v => v
  | .split6 v => v
  | .split7 v => v
  | .split8 v => v
  | .split9 v => v
  | .split10 v => v
  | .split11 v => v
  | .split12 v => v
  | .split13 v => v
  | .split14 v => v
  | .split15 v => v
  | .split16 v => v
  | .split17 v => v
  | .split18 v => v
  | .split19 v => v
  | .split20 v => v
  | .split21 v => v
  | .split22 v => v
  | .split23 v => v
  | .split24 v => v

end Sys2Proof
end

