-- ==== Sys2Proof/WellFormed.lean ====
section
/-! DEFINITION. The assembler's lines and the checks it makes on them (30_encoding.md R44, R45). Every term of `Instr` is well
formed by its type (its value has 24 bits, its fan-out is one of the 24 constructors), so the checks stand where an ill-formed
operand can be written: on the line of assembly, whose numbers are plain numbers. -/

namespace Sys2Proof

/-- A line of assembly (R44) or a pseudo-instruction (R45), with its operands as written. -/
inductive AsmLine where
  | split (k value : Nat)   -- SPLIT k, value
  | form (k value : Nat)    -- SPLIT.k value, the same instruction
  | word (w : Nat)          -- .word w: a word given as data, legal or not
  | coord (value : Nat)     -- COORD value
  | color (value : Nat)     -- COLOR value
  | pixel (value : Nat)     -- PIXEL value
deriving DecidableEq, Repr

/-- R44: a fan-out is 1..`K_MAX`. -/
def fanoutWellFormed (k : Nat) : Bool := 1 ≤ k && k ≤ Config.kMax

/-- R44: a value is at most `0xFFFFFF`. -/
def valueWellFormed (v : Nat) : Bool := v ≤ 0xFFFFFF

/-- R44: the assembler refuses `k = 0`, `k > 24` and `value > 0xFFFFFF`; a word given as data has 32 bits (R34). -/
def AsmLine.wellFormed : AsmLine → Bool
  | .split k v => fanoutWellFormed k && valueWellFormed v
  | .form k v => fanoutWellFormed k && valueWellFormed v
  | .word w => w < 2 ^ 32
  | .coord v => valueWellFormed v
  | .color v => valueWellFormed v
  | .pixel v => valueWellFormed v

end Sys2Proof
end

