-- ==== Sys2Proof/Decode.lean ====
section
/-! DEFINITION. The decoder of command words, total, rejecting by cause (30_encoding.md R38 to R41; 60_exceptions.md R74, R75),
the encoder (R34, R40), the opcode table as mask and match rows (R39) and the host's reading of a table row's word. -/

namespace Sys2Proof

/-- The three causes of a command error (R74). -/
inductive Cause where
  | illegalOp
  | fanoutZero
  | fanoutRange
deriving DecidableEq, Repr

/-- The outcome of decoding one word (R40): an instruction, or a rejection with its cause. -/
inductive Decoded where
  | instr (i : Instr)
  | illegal (c : Cause)
deriving DecidableEq, Repr

/-- `OP = word[31:29]` (R38). -/
def opField (w : CommandWord) : BitVec 3 := w.extractLsb' 29 3

/-- `K = word[28:24]`, unsigned, neither biased nor scaled (R36, R38). -/
def kField (w : CommandWord) : FanoutField := w.extractLsb' 24 5

/-- `VALUE = word[23:0]`, unsigned (R37, R38). -/
def valueField (w : CommandWord) : Value := w.extractLsb' 0 24

/-- The second half of R40, for `OP = 0`: fan-out 0 and fan-outs above `K_MAX` = 24 are rejected, each with its own cause. -/
def decodeFanout (k : FanoutField) (v : Value) : Decoded :=
  match k.toNat with
  | 0 => .illegal .fanoutZero
  | 1 => .instr (.split1 v)
  | 2 => .instr (.split2 v)
  | 3 => .instr (.split3 v)
  | 4 => .instr (.split4 v)
  | 5 => .instr (.split5 v)
  | 6 => .instr (.split6 v)
  | 7 => .instr (.split7 v)
  | 8 => .instr (.split8 v)
  | 9 => .instr (.split9 v)
  | 10 => .instr (.split10 v)
  | 11 => .instr (.split11 v)
  | 12 => .instr (.split12 v)
  | 13 => .instr (.split13 v)
  | 14 => .instr (.split14 v)
  | 15 => .instr (.split15 v)
  | 16 => .instr (.split16 v)
  | 17 => .instr (.split17 v)
  | 18 => .instr (.split18 v)
  | 19 => .instr (.split19 v)
  | 20 => .instr (.split20 v)
  | 21 => .instr (.split21 v)
  | 22 => .instr (.split22 v)
  | 23 => .instr (.split23 v)
  | 24 => .instr (.split24 v)
  | _ => .illegal .fanoutRange

/-- R40: the opcode is checked first, the fan-out second, so a word with a reserved opcode reports `ILLEGAL_OP` whatever its
`K` holds (R75). -/
def decode (w : CommandWord) : Decoded :=
  if opField w = 0#3 then decodeFanout (kField w) (valueField w) else .illegal .illegalOp

/-- Format C (R34) for SPLIT: `OP = 0b000` in bits 31:29, `K` in bits 28:24, `VALUE` in bits 23:0. -/
def encode (i : Instr) : CommandWord := 0#3 ++ BitVec.ofNat 5 i.fanout ++ i.value

/-- A row of the opcode table: the word stands for the row when its masked bits equal the pattern (R39). -/
structure OpcodeRow where
  mask : CommandWord
  pattern : CommandWord
deriving DecidableEq, Repr

/-- The row `SPLIT.k`: mask `0xFF000000`, match `k * 2^24` (R39). -/
def opcodeRow (k : Nat) : OpcodeRow := ⟨0xFF000000#32, BitVec.ofNat 32 (k * 2 ^ 24)⟩

/-- The 24 rows of spec/opcode_table.json (R39, D28). -/
def opcodeTable : List OpcodeRow := (List.range 24).map fun j => opcodeRow (j + 1)

/-- Whether a row of the table matches a word (R39). -/
def OpcodeRow.covers (r : OpcodeRow) (w : CommandWord) : Bool := w &&& r.mask == r.pattern

/-- The cause a word is rejected with; none for a legal SPLIT (R39, R74). -/
def rejection (w : CommandWord) : Option Cause :=
  match decode w with
  | .instr _ => none
  | .illegal c => some c

/-- The command word whose low `nbits` bits are those of `w` and whose other bits are 0. -/
def tableWord (nbits w : Nat) : CommandWord := BitVec.ofNat 32 (w % 2 ^ nbits)

/-- What the decoder reads from a table row's word. A command is one parallel 32-bit word with no byte order (R28, R43), so
nothing is laid out in bytes; an instruction of more than 32 bits does not exist. -/
def decodeTableWord (nbits w : Nat) : Option Instr :=
  if nbits ≤ 32 then
    match decode (tableWord nbits w) with
    | .instr i => some i
    | .illegal _ => none
  else none

end Sys2Proof
end

