-- ==== Sys2Proof/Machine/State.lean ====
section
/-! DEFINITION. The state: the 585 bits of architectural state of one engine (10_state.md R13), the host actions that stand
before it (70_reset_and_hazards.md R92), what its Reads returned, and the model's place in its free values. -/

namespace Sys2Proof.Machine

/-- The whole architectural state of one engine instance (R13): 24 x 24 + 5 + 1 + 1 + 2 bits. It is also what a Read returns
(R92). -/
structure Engine where
  /-- `RES[0..23]` (R14) -/
  res : Vector Value 24
  /-- `RES_K` (R15) -/
  resK : FanoutField
  /-- `VALID` (R16) -/
  valid : Bool
  /-- `ERR` (R17) -/
  err : Bool
  /-- `ERR_CAUSE` (R17, R74) -/
  errCause : CauseCode
deriving DecidableEq, Repr

/-- The three host actions (R92); the engine has no others. -/
inductive HostAction where
  | reset
  | issue (word : CommandWord)
  | read
deriving DecidableEq, Repr

/-- A machine state. `engine` is the spec's; the other four fields are the model's own (log entries 2 and 7). -/
structure State where
  /-- The engine's registers (R13). -/
  engine : Engine
  /-- The host's actions not yet performed, the next one first (R92). -/
  pending : List HostAction
  /-- What the host's Reads returned, the latest first (R92). -/
  reads : List Engine
  /-- Which stream of free values this engine draws from (log entries 6 and 7). -/
  stream : Nat
  /-- How many free values have been drawn from it (log entry 7). -/
  draws : Nat
deriving DecidableEq, Repr

/-- The reasons a step may stop with a fault: none. The engine's one fault, the command error, is recorded in `ERR` and
`ERR_CAUSE` and the engine goes on (R73, R76, R79), so it is a next state (log entry 4). Nothing raises a `Fault`. -/
inductive Fault where
deriving DecidableEq, Repr

/-- The reasons the model may have no meaning for an instruction. -/
inductive Refusal where
  /-- Raised by an arm of `exec` whose instruction is not modelled, by its mnemonic: no arm raises it. Safe: a run stops where
  the hardware goes on. -/
  | notModelled (mnemonic : String)
deriving DecidableEq, Repr

/-- The registers right after `Reset` (R23, R87): the flags are 0; `RES` and `RES_K` are unspecified, so each is a free value,
drawn here as number `draw` of stream `stream` (log entry 1). -/
def Engine.afterReset (stream draw : Nat) : Engine where
  res := Vector.ofFn fun c => Config.unspecifiedRes stream draw c
  resK := Config.unspecifiedResK stream draw
  valid := false
  err := false
  errCause := 0#2

/-- An engine after power-up, which counts as a `Reset` (R87), with no host action pending. -/
def State.powerUp (stream : Nat) : State where
  engine := Engine.afterReset stream 0
  pending := []
  reads := []
  stream := stream
  draws := 1

/-- The machine right after reset (R23, R87, R88). -/
def State.reset : State := State.powerUp 0

end Sys2Proof.Machine
end

