-- ==== Sys2Proof/Machine/Transform.lean ====
section
/-! DEFINITION. The transform `redistribute(value, k, width)` on natural numbers (40_transform.md R46 to R63): the loop of R48
with its router, shifter and accumulator, its domain, its closed form, its rounds, its widths and its inverse. -/

namespace Sys2Proof.Machine

/-- `v[i]`, bit `i` of `v`: `(v div 2^i) mod 2` (R8). -/
def bitOf (v i : Nat) : Nat := v / 2 ^ i % 2

/-- The modulo router: lane `i` goes to component `i mod k` (R50). -/
def routeOf (k i : Nat) : Nat := i % k

/-- The barrel shifter's amount: lane `i` lands at output bit `i div k` (R51). -/
def shiftOf (k i : Nat) : Nat := i / k

/-- The term lane `i` hands to its accumulator, `t_i = b_i << (i div k)` (R49, R51). -/
def laneTerm (v k i : Nat) : Nat := bitOf v i <<< shiftOf k i

/-- The loop body of R48 for bit position `i`: OR the lane's term into its component. -/
def accumulate (v k : Nat) (comps : List Nat) (i : Nat) : List Nat :=
  comps.modify (routeOf k i) (· ||| laneTerm v k i)

/-- The algorithm of R48: every component starts at 0, then the bit positions `0 .. width-1` in order. -/
def redLoop (v k width : Nat) : List Nat :=
  (List.range width).foldl (accumulate v k) (List.replicate k 0)

/-- `redistribute(value, k, width)` with its preconditions (R46, R47). Outside them it has no value: in particular a value of
more than `width` bits is not masked (R62, U1). -/
def redistribute (v k width : Nat) : Option (List Nat) :=
  if 1 ≤ width ∧ v < 2 ^ width ∧ 1 ≤ k then some (redLoop v k width) else none

/-- The closed form of R54: component `c` is the sum over `j` with `j*k + c < width` of `value[j*k + c] * 2^j`. -/
def closedComponent (v k width c : Nat) : Nat :=
  ((List.range width).map fun j => if j * k + c < width then bitOf v (j * k + c) * 2 ^ j else 0).sum

/-- `n_c`, how many input bits component `c < k` receives (R56). -/
def bitCount (k width c : Nat) : Nat := if c < width % k then width / k + 1 else width / k

/-- The number of rounds, `ceil(width / k)` (R53). -/
def rounds (k width : Nat) : Nat := (width + k - 1) / k

/-- The lanes of round `s`: the input bits `s*k .. min(s*k + k - 1, width - 1)` (R53). -/
def roundLanes (k width s : Nat) : List Nat :=
  (List.range' (s * k) k).filter (· < width)

/-- A sequential implementation, one round at a time (R53). -/
def redRounds (v k width : Nat) : List Nat :=
  (List.range (rounds k width)).foldl
    (fun comps s => (roundLanes k width s).foldl (accumulate v k) comps) (List.replicate k 0)

/-- The inverse (R60), for stating laws only: the engine has no command for it (R4 (f)). -/
def merge (comps : List Nat) (k width : Nat) : Nat :=
  (List.range width).foldl (fun value i => value ||| bitOf (comps.getD (routeOf k i) 0) (shiftOf k i) <<< i) 0

end Sys2Proof.Machine
end

