-- ==== Sys2Proof/Machine/Operands.lean ====
section
/-! DEFINITION. The operands: the source operands are fields of the command word (30_encoding.md R38, in Decode.lean), the
destination is the whole result latch (10_state.md R14, R15; 41_split.md R64), and the host takes its tuple from it (R97). -/

namespace Sys2Proof.Machine

/-- `pad24` with `zext_24` (R64, R92): component `c` in `RES[c]`, zeros beyond the tuple. -/
def latch (comps : List Nat) : Vector Value 24 :=
  Vector.ofFn fun c => BitVec.ofNat 24 (comps.getD c 0)

/-- The 24 registers a `SPLIT k, value` writes: `pad24(red(value, k, 24))` (R64). The transform is in its domain: a `Value`
is below `2^24`, and `k` is at least 1 in every decoded SPLIT (R40). -/
def splitResult (k : Nat) (value : Value) : Vector Value 24 :=
  latch (redLoop value.toNat k Config.width)

/-- The result tuple `(RES[0], ..., RES[RES_K - 1])` (R15, R97). -/
def Engine.tuple (e : Engine) : List Value := e.res.toList.take e.resK.toNat

end Sys2Proof.Machine
end

