-- ==== Sys2Proof/Machine/Flags.lean ====
section
/-! DEFINITION. The flags `VALID`, `ERR`, `ERR_CAUSE`: the cause codes, the recording of a command error, and the `STATUS` view
(10_state.md R16, R17, R19; 60_exceptions.md R74, R76, R77; 70_reset_and_hazards.md R91). -/

namespace Sys2Proof.Machine

/-- The code `ERR_CAUSE` records; 0 stands for none (R17, R74). -/
def causeCode : Cause → CauseCode
  | .illegalOp => 1#2
  | .fanoutZero => 2#2
  | .fanoutRange => 3#2

/-- The cause kept by a command error: the first one since reset wins (R76, R77). -/
def keptCause (e : Engine) (c : Cause) : CauseCode :=
  if e.err then e.errCause else causeCode c

/-- The packing of the 9-bit `STATUS` view, bit 8 down to bit 0 (R19, R91). -/
def packStatus (valid err : Bool) (cause : CauseCode) (k : FanoutField) : BitVec 9 :=
  BitVec.ofBool valid ++ BitVec.ofBool err ++ cause ++ k

/-- `STATUS` of the registers, `{VALID, ERR, ERR_CAUSE, RES_K}` (R19). At the wires it is `PortsOut.status`. -/
def Engine.status (e : Engine) : BitVec 9 := packStatus e.valid e.err e.errCause e.resK

end Sys2Proof.Machine
end

