-- ==== Sys2Proof/Machine/Ops.lean ====
section
/-! DEFINITION. The named operations: latching a SPLIT's result, the command error (the engine's one fault, the counterpart of
taking an exception; there is no return from it, R78), and the host actions `Reset` and `Read`
(41_split.md R64; 60_exceptions.md R76; 70_reset_and_hazards.md R87, R92). The engine has no memory (R25). -/

namespace Sys2Proof.Machine

/-- `SPLIT(k, value)` on the registers (R64): all 24 result registers, `RES_K` and `VALID`; the error record is kept. -/
def Engine.split (e : Engine) (k : Nat) (value : Value) : Engine :=
  { e with res := splitResult k value, resK := BitVec.ofNat 5 k, valid := true }

/-- `CommandError(cause)` on the registers (R76): `ERR` and, if this is the first error, `ERR_CAUSE`; nothing else. -/
def Engine.commandError (e : Engine) (c : Cause) : Engine :=
  { e with err := true, errCause := keptCause e c }

/-- The effect of one whole command word on the registers (R92). -/
def Engine.issue (e : Engine) (w : CommandWord) : Engine :=
  match decode w with
  | .instr i => e.split i.fanout i.value
  | .illegal c => e.commandError c

/-- What a Read returns (R92): the state; but while `VALID` is 0 the items `RES` and `RES_K` are unspecified and may differ
from Read to Read, so each is a free value of its own draw (R30 (c), R96, U5; log entry 11). -/
def Engine.readView (e : Engine) (stream draw : Nat) : Engine :=
  if e.valid then e
  else { e with
    res := Vector.ofFn fun c => Config.unspecifiedRes stream draw c
    resK := Config.unspecifiedResK stream draw }

/-- A SPLIT as a change of the machine state: the registers only. -/
def State.split (s : State) (k : Nat) (value : Value) : State :=
  { s with engine := s.engine.split k value }

/-- The command error as a change of the machine state: the registers only. -/
def State.commandError (s : State) (c : Cause) : State :=
  { s with engine := s.engine.commandError c }

/-- The host action `Reset` (R87). -/
def State.doReset (s : State) : State :=
  { s with engine := Engine.afterReset s.stream s.draws, draws := s.draws + 1 }

/-- The host action `Read` (R92): the registers stay, the host learns them. -/
def State.doRead (s : State) : State :=
  { s with reads := s.engine.readView s.stream s.draws :: s.reads, draws := s.draws + 1 }

/-- Takes the next host action, if there is one (R92, R99). -/
def State.nextAction (s : State) : Option (HostAction × State) :=
  match s.pending with
  | [] => none
  | a :: rest => some (a, { s with pending := rest })

/-- Puts an action where the machine takes its next one. -/
def State.presentNext (s : State) (a : HostAction) : State :=
  { s with pending := a :: s.pending }

end Sys2Proof.Machine
end

