-- ==== Sys2Proof/Machine/Split.lean ====
section
/-! DEFINITION. The meaning of every instruction: the 24 forms of SPLIT (41_split.md R64 to R69), one definition each over the
shared operation `State.split`. No form can fail: every decoded SPLIT is in range (R64), so each answers a next state. -/

namespace Sys2Proof.Machine

/-- `SPLIT.1 value` (R64, R67). -/
def execSplit1 (value : Value) (s : State) : Host.Outcome State Fault Refusal :=
  .next (s.split 1 value)

/-- `SPLIT.2 value` (R64, R65). -/
def execSplit2 (value : Value) (s : State) : Host.Outcome State Fault Refusal :=
  .next (s.split 2 value)

/-- `SPLIT.3 value` (R64, R66). -/
def execSplit3 (value : Value) (s : State) : Host.Outcome State Fault Refusal :=
  .next (s.split 3 value)

/-- `SPLIT.4 value` (R64, R69). -/
def execSplit4 (value : Value) (s : State) : Host.Outcome State Fault Refusal :=
  .next (s.split 4 value)

/-- `SPLIT.5 value` (R64, R69). -/
def execSplit5 (value : Value) (s : State) : Host.Outcome State Fault Refusal :=
  .next (s.split 5 value)

/-- `SPLIT.6 value` (R64, R69). -/
def execSplit6 (value : Value) (s : State) : Host.Outcome State Fault Refusal :=
  .next (s.split 6 value)

/-- `SPLIT.7 value` (R64, R69). -/
def execSplit7 (value : Value) (s : State) : Host.Outcome State Fault Refusal :=
  .next (s.split 7 value)

/-- `SPLIT.8 value` (R64, R69). -/
def execSplit8 (value : Value) (s : State) : Host.Outcome State Fault Refusal :=
  .next (s.split 8 value)

/-- `SPLIT.9 value` (R64, R69). -/
def execSplit9 (value : Value) (s : State) : Host.Outcome State Fault Refusal :=
  .next (s.split 9 value)

/-- `SPLIT.10 value` (R64, R69). -/
def execSplit10 (value : Value) (s : State) : Host.Outcome State Fault Refusal :=
  .next (s.split 10 value)

/-- `SPLIT.11 value` (R64, R69). -/
def execSplit11 (value : Value) (s : State) : Host.Outcome State Fault Refusal :=
  .next (s.split 11 value)

/-- `SPLIT.12 value` (R64, R69). -/
def execSplit12 (value : Value) (s : State) : Host.Outcome State Fault Refusal :=
  .next (s.split 12 value)

/-- `SPLIT.13 value` (R64, R68). -/
def execSplit13 (value : Value) (s : State) : Host.Outcome State Fault Refusal :=
  .next (s.split 13 value)

/-- `SPLIT.14 value` (R64, R68). -/
def execSplit14 (value : Value) (s : State) : Host.Outcome State Fault Refusal :=
  .next (s.split 14 value)

/-- `SPLIT.15 value` (R64, R68). -/
def execSplit15 (value : Value) (s : State) : Host.Outcome State Fault Refusal :=
  .next (s.split 15 value)

/-- `SPLIT.16 value` (R64, R68). -/
def execSplit16 (value : Value) (s : State) : Host.Outcome State Fault Refusal :=
  .next (s.split 16 value)

/-- `SPLIT.17 value` (R64, R68). -/
def execSplit17 (value : Value) (s : State) : Host.Outcome State Fault Refusal :=
  .next (s.split 17 value)

/-- `SPLIT.18 value` (R64, R68). -/
def execSplit18 (value : Value) (s : State) : Host.Outcome State Fault Refusal :=
  .next (s.split 18 value)

/-- `SPLIT.19 value` (R64, R68). -/
def execSplit19 (value : Value) (s : State) : Host.Outcome State Fault Refusal :=
  .next (s.split 19 value)

/-- `SPLIT.20 value` (R64, R68). -/
def execSplit20 (value : Value) (s : State) : Host.Outcome State Fault Refusal :=
  .next (s.split 20 value)

/-- `SPLIT.21 value` (R64, R68). -/
def execSplit21 (value : Value) (s : State) : Host.Outcome State Fault Refusal :=
  .next (s.split 21 value)

/-- `SPLIT.22 value` (R64, R68). -/
def execSplit22 (value : Value) (s : State) : Host.Outcome State Fault Refusal :=
  .next (s.split 22 value)

/-- `SPLIT.23 value` (R64, R68). -/
def execSplit23 (value : Value) (s : State) : Host.Outcome State Fault Refusal :=
  .next (s.split 23 value)

/-- `SPLIT.24 value` (R64, R68). -/
def execSplit24 (value : Value) (s : State) : Host.Outcome State Fault Refusal :=
  .next (s.split 24 value)

end Sys2Proof.Machine
end

