-- ==== Sys2Proof/Machine/Dispatch.lean ====
section
/-! DEFINITION. exec: one arm per constructor of Instr, each a direct call of that instruction's meaning. -/

namespace Sys2Proof.Machine

def exec (i : Instr) (s : State) : Host.Outcome State Fault Refusal :=
  match i with
  | .split1 value => Sys2Proof.Machine.execSplit1 value s
  | .split2 value => Sys2Proof.Machine.execSplit2 value s
  | .split3 value => Sys2Proof.Machine.execSplit3 value s
  | .split4 value => Sys2Proof.Machine.execSplit4 value s
  | .split5 value => Sys2Proof.Machine.execSplit5 value s
  | .split6 value => Sys2Proof.Machine.execSplit6 value s
  | .split7 value => Sys2Proof.Machine.execSplit7 value s
  | .split8 value => Sys2Proof.Machine.execSplit8 value s
  | .split9 value => Sys2Proof.Machine.execSplit9 value s
  | .split10 value => Sys2Proof.Machine.execSplit10 value s
  | .split11 value => Sys2Proof.Machine.execSplit11 value s
  | .split12 value => Sys2Proof.Machine.execSplit12 value s
  | .split13 value => Sys2Proof.Machine.execSplit13 value s
  | .split14 value => Sys2Proof.Machine.execSplit14 value s
  | .split15 value => Sys2Proof.Machine.execSplit15 value s
  | .split16 value => Sys2Proof.Machine.execSplit16 value s
  | .split17 value => Sys2Proof.Machine.execSplit17 value s
  | .split18 value => Sys2Proof.Machine.execSplit18 value s
  | .split19 value => Sys2Proof.Machine.execSplit19 value s
  | .split20 value => Sys2Proof.Machine.execSplit20 value s
  | .split21 value => Sys2Proof.Machine.execSplit21 value s
  | .split22 value => Sys2Proof.Machine.execSplit22 value s
  | .split23 value => Sys2Proof.Machine.execSplit23 value s
  | .split24 value => Sys2Proof.Machine.execSplit24 value s

end Sys2Proof.Machine
end

