-- ==== Sys2Proof/Machine/Step.lean ====
section
/-! DEFINITION. The step function over host actions (70_reset_and_hazards.md R92, R99) and the host's placing of a word. -/

namespace Sys2Proof.Machine

/-- One step: the next pending host action, as one atomic change (R30, R92). An issued word is decoded and executed, or
rejected by a command error. With no action pending the engine is quiescent and nothing changes (R99). -/
def step (s : State) : Host.Outcome State Fault Refusal :=
  match s.nextAction with
  | none => .next s
  | some (.reset, s) => .next s.doReset
  | some (.read, s) => .next s.doRead
  | some (.issue w, s) =>
    match decode w with
    | .instr i => exec i s
    | .illegal c => .next (s.commandError c)

/-- `s` with a table row's word presented on the command port as the very next host action (log entry 3). -/
def State.withFetchWord (s : State) (nbits w : Nat) : State :=
  s.presentNext (.issue (tableWord nbits w))

end Sys2Proof.Machine
end

