-- ==== Sys2Proof/Machine/Assembler.lean ====
section
/-! DEFINITION. The assembler: what each line of assembly expands to, as host actions (30_encoding.md R44, R45). -/

namespace Sys2Proof.Machine

/-- `word = k * 2^24 + value` (R34, R44). -/
def splitWord (k value : Nat) : CommandWord := BitVec.ofNat 32 (k * 2 ^ 24 + value)

/-- The expansion of a line (R44, R45). -/
def AsmLine.actions : AsmLine → List HostAction
  | .split k v => [.issue (splitWord k v)]
  | .form k v => [.issue (splitWord k v)]
  | .word w => [.issue (BitVec.ofNat 32 w)]
  | .coord v => [.issue (splitWord 2 v)]
  | .color v => [.issue (splitWord 3 v)]
  | .pixel v => [.issue (splitWord 2 v), .read, .issue (splitWord 3 v), .read]

/-- The assembler refuses an ill-formed line and expands a well-formed one (R44). -/
def assemble (l : AsmLine) : Option (List HostAction) :=
  if l.wellFormed then some (AsmLine.actions l) else none

end Sys2Proof.Machine
end

