-- ==== Sys2Proof/Machine/Signal.lean ====
section
/-! DEFINITION. The engine at its wires, clock edge by clock edge: ports (70_reset_and_hazards.md R91), handshake (R94), reset
during a command (R89) and the two kinds of reset (R87, D27). The transaction-level machine of Step.lean drops all of this
(R94, R21); here it is modelled beside it, over the same operations, with `LATENCY` as a parameter. -/

namespace Sys2Proof.Machine

/-- The input wires as one rising edge of `clk` samples them (R91). -/
structure PortsIn where
  rst : Bool
  cmdValid : Bool
  cmdWord : CommandWord
deriving DecidableEq, Repr

/-- The output wires (R91). -/
structure PortsOut where
  cmdReady : Bool
  resValid : Bool
  resK : FanoutField
  resData : BitVec 576
  err : Bool
  errCause : CauseCode
deriving DecidableEq, Repr

/-- A command accepted and not yet completed: its word and the edges left until its effect is visible (R94 (b)). -/
structure InFlight where
  word : CommandWord
  left : Nat
deriving DecidableEq, Repr

/-- The engine between two edges: its registers, at most one command in flight (R94 (b)), and its place in the free values. -/
structure SignalState where
  engine : Engine
  inFlight : Option InFlight
  stream : Nat
  draws : Nat
deriving DecidableEq, Repr

/-- `res_data`: `RES[c]` in bits `24*c + 23 : 24*c` (R28, R91). -/
def resDataOf (res : Vector Value 24) : BitVec 576 :=
  (List.finRange 24).foldl (fun (acc : BitVec 576) c => acc ||| (BitVec.setWidth 576 res[c] <<< (24 * c.val))) 0#576

/-- Whether the command in flight is a legal SPLIT (R94 (c)). -/
def SignalState.splitInFlight (s : SignalState) : Bool :=
  match s.inFlight with
  | some f => (rejection f.word).isNone
  | none => false

/-- The output wires (R91, R94): `cmd_ready` is 0 exactly while a command is in flight; `res_valid` is `VALID` except that it
is 0 while a legal SPLIT is in flight; the rest show the registers directly. -/
def SignalState.outputs (s : SignalState) : PortsOut where
  cmdReady := s.inFlight.isNone
  resValid := s.engine.valid && !s.splitInFlight
  resK := s.engine.resK
  resData := resDataOf s.engine.res
  err := s.engine.err
  errCause := s.engine.errCause

/-- `STATUS` at the wires, `{res_valid, err, err_cause, res_k}` (R91): its bit 8 is 0 while a legal SPLIT is in flight (R94 (c)). -/
def PortsOut.status (o : PortsOut) : BitVec 9 := packStatus o.resValid o.err o.errCause o.resK

/-- Reset at the wires: the registers as after `Reset`, and a command in flight is abandoned (R87, R89). -/
def SignalState.applyReset (s : SignalState) : SignalState :=
  { s with engine := Engine.afterReset s.stream s.draws, inFlight := none, draws := s.draws + 1 }

/-- A command with no edge left takes its whole effect (R94 (b)). -/
def SignalState.settle (s : SignalState) : SignalState :=
  match s.inFlight with
  | some ⟨w, 0⟩ => { s with engine := s.engine.issue w, inFlight := none }
  | _ => s

/-- One rising edge of `clk` (R94 (a), (b)): `rst` wins; a command in flight comes one edge nearer; otherwise a presented word
is accepted and completes its `latency` of edges later, at this edge if that is 0. -/
def SignalState.edge (latency : CommandWord → Nat) (s : SignalState) (p : PortsIn) : SignalState :=
  if p.rst then s.applyReset
  else match s.inFlight with
    | some f => SignalState.settle { s with inFlight := some ⟨f.word, f.left - 1⟩ }
    | none => if p.cmdValid then SignalState.settle { s with inFlight := some ⟨p.cmdWord, latency p.cmdWord⟩ } else s

/-- `rst` rising between two clock edges: it acts at once when reset is asynchronous, else only at the next edge (D27, log entry
12). -/
def SignalState.rstRises (kind : ResetKind) (s : SignalState) : SignalState :=
  match kind with
  | .synchronous => s
  | .asynchronous => s.applyReset

/-- A sequence of edges (R94). -/
def SignalState.edges (latency : CommandWord → Nat) (s : SignalState) (ps : List PortsIn) : SignalState :=
  ps.foldl (SignalState.edge latency) s

/-- The host action that takes its effect at an edge, if one does: `Reset` where `rst` is 1, else the `Issue` of the word that
completes there (R92, R94). -/
def SignalState.completedAt (latency : CommandWord → Nat) (s : SignalState) (p : PortsIn) : List HostAction :=
  if p.rst then [.reset]
  else match s.inFlight with
    | some f => if f.left ≤ 1 then [.issue f.word] else []
    | none => if p.cmdValid && latency p.cmdWord == 0 then [.issue p.cmdWord] else []

/-- The host actions that take their effect during a sequence of edges, the first one first. -/
def SignalState.completed (latency : CommandWord → Nat) : SignalState → List PortsIn → List HostAction
  | _, [] => []
  | s, p :: ps => s.completedAt latency p ++ SignalState.completed latency (s.edge latency p) ps

/-- This engine's own clocking, with the open `LATENCY` (R98). -/
def SignalState.clock (s : SignalState) (p : PortsIn) : SignalState := s.edge Config.latency p

/-- This engine's own reset input, with the open `RESET_KIND` (D27). -/
def SignalState.resetInput (s : SignalState) : SignalState := s.rstRises Config.resetKind

/-- The engine at its wires after power-up: ready for a command at once (R87, R88). -/
def SignalState.reset : SignalState where
  engine := Engine.afterReset 0 0
  inFlight := none
  stream := 0
  draws := 1

end Sys2Proof.Machine
end

