-- ==== Sys2Proof/Machine/System.lean ====
section
/-! DEFINITION. Several engines side by side (60_exceptions.md R85): a list of instances that share nothing. -/

namespace Sys2Proof.Machine

/-- `N_ENGINES` instances, each after its own power-up and drawing from a stream of free values of its own (R85, log entry 6). -/
def systemReset : List State := (List.range Config.nEngines).map State.powerUp

/-- Instance `j` performs its next host action; the others stand still (R32 (e), R85). A step of an instance that is not there
changes nothing. -/
def systemStep (sys : List State) (j : Nat) : Host.Outcome (List State) Fault Refusal :=
  match sys[j]? with
  | none => .next sys
  | some s =>
    match step s with
    | .next t => .next (sys.set j t)
    | .fault r => .fault r
    | .refused r => .refused r

end Sys2Proof.Machine
end

