-- ==== Sys2Proof/Safety.lean ====
section
/-! DEFINITION. What a claim about a run may ask for: an error-free run (60_exceptions.md R73; 70_reset_and_hazards.md R99) and
the consistency of the registers (10_state.md R15 to R17). -/

namespace Sys2Proof

/-- `n` steps of the machine, stopping at a fault or refusal. -/
def run (n : Nat) (s : Machine.State) : Host.Outcome Machine.State Machine.Fault Machine.Refusal := core.run n s

/-- The only "gone wrong" marker is `ERR = 1` (R99). -/
def ErrorFree (s : Machine.State) : Prop := s.engine.err = false

/-- `n` steps from `s` all complete and no command was rejected (R73, R99). -/
def SafeRun (n : Nat) (s : Machine.State) : Prop :=
  ∃ t, run n s = .next t ∧ ErrorFree t

/-- What the registers satisfy at all times: `ERR = 0` exactly when `ERR_CAUSE = 0` (R17), and while `VALID = 1` the latch is
the whole result of a SPLIT with a legal fan-out (R13, R15, R16). -/
def EngineConsistent (e : Machine.Engine) : Prop :=
  (e.err = false ↔ e.errCause = 0#2) ∧
  (e.valid = true →
    1 ≤ e.resK.toNat ∧ e.resK.toNat ≤ 24 ∧ ∃ v : Value, e.res = Machine.splitResult e.resK.toNat v)

/-- The registers are consistent and so is everything a Read has returned. -/
def Consistent (s : Machine.State) : Prop :=
  EngineConsistent s.engine ∧ ∀ r ∈ s.reads, EngineConsistent r

end Sys2Proof
end

