-- ==== Sys2Proof/Certificates/Slice0/Obligations.lean ====
section
/-! DEFINITION. The statements for the provers, in the order of spec/: encoding, transform, SPLIT, command errors, host actions,
invariants, wires, several engines, assembler. No statement rests on the value of a free value. -/

open Sys2Proof Sys2Proof.Machine

/-- Words written out from format C (R34) decode to what they stand for (95_test_vectors.md section 2.4). -/
def Obligations.SpecWordsDecode : Prop :=
  decode 0x01FFFFFF#32 = .instr (.split1 0xFFFFFF#24) ∧
  decode 0x02000001#32 = .instr (.split2 1#24) ∧
  decode 0x03ABCDEF#32 = .instr (.split3 0xABCDEF#24) ∧
  decode 0x0C000FFF#32 = .instr (.split12 0xFFF#24) ∧
  decode 0x17800000#32 = .instr (.split23 0x800000#24) ∧
  decode 0x18000000#32 = .instr (.split24 0#24) ∧
  decode 0x00FFFFFF#32 = .illegal .fanoutZero ∧
  decode 0x19000000#32 = .illegal .fanoutRange ∧
  decode 0x1FFFFFFF#32 = .illegal .fanoutRange ∧
  decode 0x20000000#32 = .illegal .illegalOp ∧
  decode 0x38123456#32 = .illegal .illegalOp

/-- R40: the decoder checks the opcode first and the fan-out second and never fails; encoding is `k * 2^24 + value` and decoding
inverts it. Fields are written as numbers: `word[hi:lo] = (word div 2^lo) mod 2^(hi-lo+1)` (R8). -/
def Obligations.DecodeAndEncodeAgree : Prop :=
  (∀ w : CommandWord,
    (w.toNat / 2 ^ 29 % 2 ^ 3 ≠ 0 → decode w = .illegal .illegalOp) ∧
    (w.toNat / 2 ^ 29 % 2 ^ 3 = 0 → w.toNat / 2 ^ 24 % 2 ^ 5 = 0 → decode w = .illegal .fanoutZero) ∧
    (w.toNat / 2 ^ 29 % 2 ^ 3 = 0 → 24 < w.toNat / 2 ^ 24 % 2 ^ 5 → decode w = .illegal .fanoutRange) ∧
    (w.toNat / 2 ^ 29 % 2 ^ 3 = 0 → 1 ≤ w.toNat / 2 ^ 24 % 2 ^ 5 → w.toNat / 2 ^ 24 % 2 ^ 5 ≤ 24 →
      ∃ i, decode w = .instr i ∧ i.fanout = w.toNat / 2 ^ 24 % 2 ^ 5 ∧ i.value.toNat = w.toNat % 2 ^ 24)) ∧
  ∀ i : Instr,
    1 ≤ i.fanout ∧ i.fanout ≤ 24 ∧
    (encode i).toNat = i.fanout * 2 ^ 24 + i.value.toNat ∧
    decode (encode i) = .instr i

/-- A legal word is the encoding of the instruction it decodes to: no two words stand for one instruction (R40, R41). -/
def Obligations.EncodeInvertsDecode : Prop :=
  ∀ (w : CommandWord) (i : Instr), decode w = .instr i → encode i = w

/-- The 24 rows of the opcode table are a complete decoder, and no two of them overlap (R39, D28). -/
def Obligations.OpcodeTableIsTheDecoder : Prop :=
  ∀ w : CommandWord,
    ((∃ i, decode w = .instr i) ↔ ∃ r ∈ opcodeTable, r.covers w = true) ∧
    ∀ i k, decode w = .instr i → 1 ≤ k → k ≤ 24 → ((opcodeRow k).covers w = true ↔ k = i.fanout)

/-- How many of the `2^32` words fall in each class of R39. -/
def Obligations.WordClassCounts : Prop :=
  (Finset.univ.filter fun w : CommandWord => rejection w = none).card = 24 * 2 ^ 24 ∧
  (Finset.univ.filter fun w : CommandWord => rejection w = some .fanoutZero).card = 2 ^ 24 ∧
  (Finset.univ.filter fun w : CommandWord => rejection w = some .fanoutRange).card = 7 * 2 ^ 24 ∧
  (Finset.univ.filter fun w : CommandWord => rejection w = some .illegalOp).card = 7 * 2 ^ 29

/-- Where the transform has a value, and that it has none elsewhere (R46, R47, R62). -/
def Obligations.TransformDomain : Prop :=
  ∀ v k width : Nat,
    (1 ≤ width → v < 2 ^ width → 1 ≤ k → ∃ comps, redistribute v k width = some comps ∧ comps.length = k) ∧
    ((width = 0 ∨ 2 ^ width ≤ v ∨ k = 0) → redistribute v k width = none)

/-- R54: the loop of R48 computes the closed form, bit by bit and as a sum. -/
def Obligations.TransformClosedForm : Prop :=
  ∀ (v k width : Nat) (comps : List Nat), redistribute v k width = some comps →
    ∀ c < k,
      (∀ j, bitOf (comps.getD c 0) j = if j * k + c < width then bitOf v (j * k + c) else 0) ∧
      comps.getD c 0 = closedComponent v k width c

/-- R55: bit positions and pairs of component and output bit correspond one to one. -/
def Obligations.PositionBijection : Prop :=
  ∀ k width : Nat, 1 ≤ k →
    (∀ i i', routeOf k i = routeOf k i' → shiftOf k i = shiftOf k i' → i = i') ∧
    ∀ c j, (∃ i, i < width ∧ routeOf k i = c ∧ shiftOf k i = j) ↔ (c < k ∧ j * k + c < width)

/-- R56: how many input bits each component receives, that they fill it from bit 0 without a gap, and what that bounds. -/
def Obligations.ComponentWidths : Prop :=
  (∀ (v k width : Nat) (comps : List Nat), redistribute v k width = some comps →
    ((List.range k).map (bitCount k width)).sum = width ∧
    ∀ c < k,
      bitCount k width c = (if c < width % k then width / k + 1 else width / k) ∧
      ((List.range width).filter fun i => routeOf k i = c).length = bitCount k width c ∧
      (∀ j, j < bitCount k width c ↔ j * k + c < width) ∧
      comps.getD c 0 < 2 ^ bitCount k width c) ∧
  (∀ k c, c < k → bitCount k 24 c ≤ 24) ∧ bitCount 1 24 0 = 24

/-- R57: a fan-out of at least the width gives one bit per component and zeros beyond; the engine never executes one above 24. -/
def Obligations.FanoutBeyondWidth : Prop :=
  (∀ (v k width : Nat) (comps : List Nat), redistribute v k width = some comps → width ≤ k →
    (∀ c < width, comps.getD c 0 = bitOf v c) ∧ ∀ c, width ≤ c → c < k → comps.getD c 0 = 0) ∧
  ∀ (w : CommandWord) (i : Instr), decode w = .instr i → i.fanout ≤ 24

/-- R58 (e): the terms routed to one component may be combined by OR, by sum or by exclusive OR. -/
def Obligations.OrIsSumIsXor : Prop :=
  ∀ (v k width : Nat) (comps : List Nat), redistribute v k width = some comps →
    ∀ c < k,
      let terms := ((List.range width).filter fun i => routeOf k i = c).map (laneTerm v k)
      comps.getD c 0 = terms.foldl (· ||| ·) 0 ∧
      comps.getD c 0 = terms.sum ∧
      comps.getD c 0 = terms.foldl (· ^^^ ·) 0

/-- R58 (f): the number of 1 bits is conserved. -/
def Obligations.PopulationCountKept : Prop :=
  ∀ (v k width : Nat) (comps : List Nat), redistribute v k width = some comps →
    (comps.map fun x => ((List.range width).map (bitOf x)).sum).sum = ((List.range width).map (bitOf v)).sum

/-- R58 (g): the transform is linear over OR, AND and exclusive OR, and takes 0 to zeros. -/
def Obligations.TransformIsLinear : Prop :=
  (∀ (a b k width : Nat) (ca cb : List Nat), redistribute a k width = some ca → redistribute b k width = some cb →
    redistribute (a ||| b) k width = some (List.zipWith (· ||| ·) ca cb) ∧
    redistribute (a &&& b) k width = some (List.zipWith (· &&& ·) ca cb) ∧
    redistribute (a ^^^ b) k width = some (List.zipWith (· ^^^ ·) ca cb)) ∧
  ∀ k width : Nat, 1 ≤ width → 1 ≤ k → redistribute 0 k width = some (List.replicate k 0)

/-- R58 (h): a single input bit gives a single output bit. -/
def Obligations.SingleBitRouting : Prop :=
  ∀ i k width : Nat, i < width → 1 ≤ k →
    redistribute (2 ^ i) k width = some ((List.replicate k 0).set (i % k) (2 ^ (i / k)))

/-- R60: the inverse undoes the transform, and the transform undoes the inverse on tuples within the component ranges. -/
def Obligations.MergeRoundTrip : Prop :=
  (∀ (v k width : Nat) (comps : List Nat), redistribute v k width = some comps → merge comps k width = v) ∧
  ∀ (t : List Nat) (k width : Nat), 1 ≤ width → 1 ≤ k → t.length = k →
    (∀ c < k, t.getD c 0 < 2 ^ bitCount k width c) → redistribute (merge t k width) k width = some t

/-- R61: for a fixed fan-out the transform is a bijection onto the tuples within the component ranges, of which there are
`2^width`; for the two fan-outs the system uses, onto `[0,4096)^2` and `[0,256)^3`. -/
def Obligations.TransformBijective : Prop :=
  (∀ k width : Nat, 1 ≤ width → 1 ≤ k →
    (∀ (v v' : Nat) (t : List Nat), redistribute v k width = some t → redistribute v' k width = some t → v = v') ∧
    (∀ t : List Nat, (∃ v, redistribute v k width = some t) ↔
      (t.length = k ∧ ∀ c < k, t.getD c 0 < 2 ^ bitCount k width c)) ∧
    ((List.range k).map fun c => 2 ^ bitCount k width c).prod = 2 ^ width) ∧
  (∀ x y : Nat, x < 4096 → y < 4096 → ∃! n : Nat, redistribute n 2 24 = some [x, y]) ∧
  ∀ r g b : Nat, r < 256 → g < 256 → b < 256 → ∃! n : Nat, redistribute n 3 24 = some [r, g, b]

/-- The order in which the bit positions are visited is free (R48, R52, U10). -/
def Obligations.AccumulationOrderFree : Prop :=
  ∀ (v k width : Nat) (order : List Nat), order.Perm (List.range width) →
    order.foldl (accumulate v k) (List.replicate k 0) = redLoop v k width

/-- R53: what a round delivers and where, how many rounds there are, how long the last one is, and that a round-by-round
implementation computes the same. -/
def Obligations.RoundByRound : Prop :=
  (∀ v k width : Nat, 1 ≤ k →
    redRounds v k width = redLoop v k width ∧
    (∀ s i, i ∈ roundLanes k width s ↔ (i < width ∧ shiftOf k i = s)) ∧
    (∀ s c, c < k → routeOf k (s * k + c) = c ∧ shiftOf k (s * k + c) = s) ∧
    (∀ s, s < rounds k width ↔ s * k < width) ∧
    (width % k ≠ 0 → rounds k width = width / k + 1 ∧ (roundLanes k width (width / k)).length = width % k) ∧
    (width % k = 0 → rounds k width = width / k)) ∧
  (List.range' 1 24).map (fun k => rounds k 24) =
    [24, 12, 8, 6, 5, 4, 4, 3, 3, 3, 3, 2, 2, 2, 2, 2, 2, 2, 2, 2, 2, 2, 2, 1]

/-- SPLIT, every form split1 to split24, in every state (R64): its word is `k * 2^24 + value`, it completes, and every item of
the state is what the rule says.
Bit `j` of `RES[c]` is input bit `j*k + c` where `c < k` and `j*k + c < 24`, else 0; `RES_K`, `VALID` are written; nothing else
changes. -/
def Obligations.SplitResultBits : Prop :=
  ∀ (i : Instr) (s : State), (encode i).toNat = i.fanout * 2 ^ 24 + i.value.toNat ∧ ∃ t, exec i s = .next t ∧
    (∀ c j, ∀ hc : c < 24, j < 24 → t.engine.res[c].getLsbD j =
      (decide (c < i.fanout ∧ j * i.fanout + c < 24) && i.value.getLsbD (j * i.fanout + c))) ∧
    t.engine.resK.toNat = i.fanout ∧
    t.engine.valid = true ∧
    t.engine.err = s.engine.err ∧ t.engine.errCause = s.engine.errCause ∧
    t.pending = s.pending ∧ t.reads = s.reads ∧ t.stream = s.stream ∧ t.draws = s.draws

/-- SPLIT, every form split1 to split24: the tuple the host takes, `(RES[0], ..., RES[RES_K - 1])`, is the transform of the
value, no bit of a component is lost in its register, and the registers beyond it are 0 (R14, R15, R64, R92, R97). -/
def Obligations.SplitTupleIsRedistribute : Prop :=
  ∀ (i : Instr) (s : State), ∃ t, exec i s = .next t ∧
    redistribute i.value.toNat i.fanout 24 = some (t.engine.tuple.map BitVec.toNat) ∧
    ∀ c, ∀ hc : c < 24, i.fanout ≤ c → t.engine.res[c] = 0#24

/-- R65, the coordinate form split2: `x` collects the even bits, `y` the odd ones, both below 4096, the rest 0; the word's number;
and every pair of coordinates comes from exactly one value. -/
def Obligations.CoordForm : Prop :=
  ∀ (value : Value) (s : State),
    (encode (.split2 value)).toNat = 0x02000000 + value.toNat ∧
    (∃ t, exec (.split2 value) s = .next t ∧
      (∀ j < 12, t.engine.res[0].getLsbD j = value.getLsbD (2 * j) ∧
        t.engine.res[1].getLsbD j = value.getLsbD (2 * j + 1)) ∧
      t.engine.res[0].toNat < 4096 ∧ t.engine.res[1].toNat < 4096 ∧
      (∀ c, ∀ hc : c < 24, 2 ≤ c → t.engine.res[c] = 0#24) ∧
      t.engine.resK = 2#5 ∧ t.engine.valid = true ∧
      t.engine.err = s.engine.err ∧ t.engine.errCause = s.engine.errCause) ∧
    ∀ x y, x < 4096 → y < 4096 → ∃! v : Value, ∃ t, exec (.split2 v) s = .next t ∧
      t.engine.res[0].toNat = x ∧ t.engine.res[1].toNat = y

/-- R66, the colour form split3: `r`, `g`, `b` collect every third bit, all below 256, the rest 0; the word's number; and every
colour comes from exactly one value. -/
def Obligations.ColorForm : Prop :=
  ∀ (value : Value) (s : State),
    (encode (.split3 value)).toNat = 0x03000000 + value.toNat ∧
    (∃ t, exec (.split3 value) s = .next t ∧
      (∀ j < 8, t.engine.res[0].getLsbD j = value.getLsbD (3 * j) ∧
        t.engine.res[1].getLsbD j = value.getLsbD (3 * j + 1) ∧
        t.engine.res[2].getLsbD j = value.getLsbD (3 * j + 2)) ∧
      t.engine.res[0].toNat < 256 ∧ t.engine.res[1].toNat < 256 ∧ t.engine.res[2].toNat < 256 ∧
      (∀ c, ∀ hc : c < 24, 3 ≤ c → t.engine.res[c] = 0#24) ∧
      t.engine.resK = 3#5 ∧ t.engine.valid = true ∧
      t.engine.err = s.engine.err ∧ t.engine.errCause = s.engine.errCause) ∧
    ∀ r g b, r < 256 → g < 256 → b < 256 → ∃! v : Value, ∃ t, exec (.split3 v) s = .next t ∧
      t.engine.res[0].toNat = r ∧ t.engine.res[1].toNat = g ∧ t.engine.res[2].toNat = b

/-- R67, the identity form split1. -/
def Obligations.IdentityForm : Prop :=
  ∀ (value : Value) (s : State),
    (encode (.split1 value)).toNat = 0x01000000 + value.toNat ∧
    ∃ t, exec (.split1 value) s = .next t ∧
      t.engine.res[0] = value ∧ (∀ c, ∀ hc : c < 24, 1 ≤ c → t.engine.res[c] = 0#24) ∧
      t.engine.resK = 1#5 ∧ t.engine.valid = true ∧
      t.engine.err = s.engine.err ∧ t.engine.errCause = s.engine.errCause

/-- R68, the forms split13 to split24: at most two bits per component, two rounds of which the second is partial, and one round
for split24. -/
def Obligations.OneOrTwoBitForms : Prop :=
  (∀ value : Value, (encode (.split24 value)).toNat = 0x18000000 + value.toNat) ∧
  (∀ i : Instr, 13 ≤ i.fanout →
    rounds i.fanout 24 = (if i.fanout = 24 then 1 else 2) ∧ (roundLanes i.fanout 24 1).length = 24 - i.fanout) ∧
  ∀ (i : Instr) (s : State), 13 ≤ i.fanout → ∃ t, exec i s = .next t ∧
    (∀ c, ∀ hc : c < 24, t.engine.res[c].toNat =
      if c < 24 - i.fanout then bitOf i.value.toNat c + 2 * bitOf i.value.toNat (c + i.fanout)
      else if c < i.fanout then bitOf i.value.toNat c
      else 0) ∧
    t.engine.resK.toNat = i.fanout ∧ t.engine.valid = true ∧
    t.engine.err = s.engine.err ∧ t.engine.errCause = s.engine.errCause

/-- The all-ones column of R69, for every form split1 to split24: it is the result of the all-ones value, and the mask of the
bits a component can ever have. -/
def Obligations.ComponentMasks : Prop :=
  ∀ (i : Instr) (s : State), ∃ t, exec i s = .next t ∧ ∀ c, ∀ hc : c < 24, c < i.fanout →
    t.engine.res[c].toNat &&& (2 ^ bitCount i.fanout 24 c - 1) = t.engine.res[c].toNat ∧
    (i.value = 0xFFFFFF#24 → t.engine.res[c].toNat = 2 ^ bitCount i.fanout 24 c - 1)

/-- The frame of every SPLIT form, split1 to split24: what it leaves alone (R64, R76). The result registers, `RES_K` and `VALID`
are its destinations; the engine has no memory (R25) and no program counter (R18). -/
def Obligations.SplitFrame : Prop :=
  ∀ (i : Instr) (s t : State), exec i s = .next t →
    t.engine.err = s.engine.err ∧ t.engine.errCause = s.engine.errCause ∧
    t.pending = s.pending ∧ t.reads = s.reads ∧ t.stream = s.stream ∧ t.draws = s.draws

/-- R24: what a legal word leaves in `RES`, `RES_K` and `VALID` is the same from any two states, and it passes the error record
through. -/
def Obligations.ResultIsFunctionOfWord : Prop :=
  ∀ (w : CommandWord) (s s' t t' : State) (rest rest' : List HostAction),
    rejection w = none → s.pending = .issue w :: rest → s'.pending = .issue w :: rest' →
    step s = .next t → step s' = .next t' →
    t.engine.res = t'.engine.res ∧ t.engine.resK = t'.engine.resK ∧ t.engine.valid = t'.engine.valid ∧
    t.engine.err = s.engine.err ∧ t.engine.errCause = s.engine.errCause

/-- The same word issued twice in a row leaves the registers as once, legal or not (R30 (d)). -/
def Obligations.IssueIdempotent : Prop :=
  ∀ (w : CommandWord) (s : State) (rest : List HostAction), s.pending = .issue w :: .issue w :: rest →
    ∃ t u, step s = .next t ∧ step t = .next u ∧ u.engine = t.engine ∧ u.pending = rest

/-- A step with an issued word that decodes is `exec` of its instruction, in the state with that action taken off (R92). -/
def Obligations.StepRunsDecodedInstruction : Prop :=
  ∀ (s : State) (w : CommandWord) (rest : List HostAction) (i : Instr),
    s.pending = .issue w :: rest → decode w = .instr i → step s = exec i { s with pending := rest }

/-- R76: the whole effect of an illegal word. -/
def Obligations.CommandErrorAction : Prop :=
  ∀ (s : State) (w : CommandWord) (rest : List HostAction) (c : Cause),
    s.pending = .issue w :: rest → decode w = .illegal c →
    ∃ t, step s = .next t ∧
      t.engine.err = true ∧
      t.engine.errCause = (if s.engine.err = false then causeCode c else s.engine.errCause) ∧
      t.engine.res = s.engine.res ∧ t.engine.resK = s.engine.resK ∧ t.engine.valid = s.engine.valid ∧
      t.pending = rest ∧ t.reads = s.reads ∧ t.stream = s.stream ∧ t.draws = s.draws

/-- The code an illegal word records as the first error, from the word's fields alone, and that a legal word records none
(R74, R75). -/
def Obligations.CauseCodesRecorded : Prop :=
  ∀ (s : State) (w : CommandWord) (rest : List HostAction),
    s.pending = .issue w :: rest → s.engine.err = false → s.engine.errCause = 0#2 →
    ∃ t, step s = .next t ∧ t.engine.errCause.toNat =
      if w.toNat / 2 ^ 29 ≠ 0 then 1
      else if w.toNat / 2 ^ 24 = 0 then 2
      else if 24 < w.toNat / 2 ^ 24 then 3
      else 0

/-- R77: once an error is recorded, every step but a `Reset` keeps `ERR` and the recorded cause, and a further illegal word
changes no register at all. -/
def Obligations.FirstCauseWins : Prop :=
  ∀ s t : State, s.engine.err = true → (∀ rest, s.pending ≠ .reset :: rest) → step s = .next t →
    t.engine.err = true ∧ t.engine.errCause = s.engine.errCause ∧
    ∀ w rest, s.pending = .issue w :: rest → rejection w ≠ none → t.engine = s.engine

/-- `ERR` gates nothing: a legal word completes, and leaves the same result, whether or not an error is recorded (R79). -/
def Obligations.ErrorGatesNothing : Prop :=
  ∀ (s : State) (w : CommandWord) (rest : List HostAction) (e : Bool) (c : CauseCode),
    s.pending = .issue w :: rest → rejection w = none →
    ∃ t t', step s = .next t ∧ step { s with engine := { s.engine with err := e, errCause := c } } = .next t' ∧
      t.engine.valid = true ∧ t'.engine = { t.engine with err := e, errCause := c }

/-- R87: the action `Reset` clears the three flags (what `RES` and `RES_K` hold is unspecified, so nothing is said of them), as
power-up does, and it is the only action that clears `ERR`, `ERR_CAUSE` or `VALID`. -/
def Obligations.ResetClearsAndOnlyReset : Prop :=
  (State.reset.engine.valid = false ∧ State.reset.engine.err = false ∧ State.reset.engine.errCause = 0#2) ∧
  (∀ (s : State) (rest : List HostAction), s.pending = .reset :: rest →
    ∃ t, step s = .next t ∧ t.engine.valid = false ∧ t.engine.err = false ∧ t.engine.errCause = 0#2 ∧
      t.pending = rest ∧ t.reads = s.reads ∧ t.stream = s.stream) ∧
  ∀ s t : State, step s = .next t → (∀ rest, s.pending ≠ .reset :: rest) →
    (s.engine.valid = true → t.engine.valid = true) ∧
    (s.engine.err = true → t.engine.err = true ∧ t.engine.errCause = s.engine.errCause)

/-- A Read changes no register and returns the whole state; while `VALID` is 0 the returned `RES` and `RES_K` are unspecified and
nothing is said of them (R30 (c), R92, R96). -/
def Obligations.ReadReturnsState : Prop :=
  ∀ (s : State) (rest : List HostAction), s.pending = .read :: rest →
    ∃ t r, step s = .next t ∧ t.engine = s.engine ∧ t.pending = rest ∧ t.reads = r :: s.reads ∧
      r.valid = s.engine.valid ∧ r.err = s.engine.err ∧ r.errCause = s.engine.errCause ∧
      (s.engine.valid = true → r = s.engine)

/-- With no action pending the engine is quiescent (R99). -/
def Obligations.QuiescentWithoutAction : Prop :=
  ∀ s : State, s.pending = [] → step s = .next s

/-- The engine has no stuck state: every step completes and takes one action (R79, R94 (d)). -/
def Obligations.NeverStuck : Prop :=
  ∀ s : State, ∃ t, step s = .next t ∧ t.pending = s.pending.tail

/-- After a `Reset` and then actions with no further `Reset` among which one is a legal SPLIT, the registers are a function of
those actions: whatever the state before, and whatever the unspecified items held (R92). -/
def Obligations.ResultsAreFunctionOfActions : Prop :=
  ∀ (acts : List HostAction) (s s' : State), .reset ∉ acts →
    (∃ w, .issue w ∈ acts ∧ rejection w = none) →
    ∃ t t', run (acts.length + 1) { s with pending := .reset :: acts } = .next t ∧
      run (acts.length + 1) { s' with pending := .reset :: acts } = .next t' ∧
      t.engine = t'.engine

/-- A run without `Reset` from an error-free state ends error-free exactly when every word issued in it is legal (R73, R99). -/
def Obligations.ErrorFreeRuns : Prop :=
  ∀ s : State, ErrorFree s → .reset ∉ s.pending →
    (SafeRun s.pending.length s ↔ ∀ w, .issue w ∈ s.pending → rejection w = none)

/-- The overwrite hazard (R95): two legal words issued without a Read between them, then two Reads: both Reads return the second
result. -/
def Obligations.UnreadResultIsLost : Prop :=
  ∀ (s : State) (i i' : Instr) (rest : List HostAction),
    s.pending = .issue (encode i) :: .issue (encode i') :: .read :: .read :: rest →
    ∃ t r, run 4 s = .next t ∧ t.pending = rest ∧ t.reads = r :: r :: s.reads ∧
      redistribute i'.value.toNat i'.fanout 24 = some (r.tuple.map BitVec.toNat)

/-- Every step keeps the registers consistent: `ERR = 0` exactly when `ERR_CAUSE = 0`, and while `VALID = 1` the latch holds the
whole result of one legal SPLIT (R15, R16, R17, R30 (b)). -/
def Obligations.ConsistencyKept : Prop :=
  ∀ s t : State, Consistent s → step s = .next t → Consistent t

/-- The registers are consistent at reset (R17, R23). -/
def Obligations.ConsistentAtReset : Prop := Consistent State.reset

/-- Where the fields of the `STATUS` view stand (R19). -/
def Obligations.StatusView : Prop :=
  ∀ e : Engine,
    e.status.getLsbD 8 = e.valid ∧ e.status.getLsbD 7 = e.err ∧
    e.status.extractLsb' 5 2 = e.errCause ∧ e.status.extractLsb' 0 5 = e.resK

/-- The output wires show the registers (R28, R91, R94 (c)). -/
def Obligations.PortsShowRegisters : Prop :=
  ∀ s : SignalState,
    (∀ c, ∀ hc : c < 24, s.outputs.resData.extractLsb' (24 * c) 24 = s.engine.res[c]) ∧
    s.outputs.resK = s.engine.resK ∧ s.outputs.err = s.engine.err ∧ s.outputs.errCause = s.engine.errCause ∧
    (s.outputs.cmdReady = true ↔ s.inFlight = none) ∧
    (s.outputs.resValid = true ↔
      s.engine.valid = true ∧ ∀ f, s.inFlight = some f → rejection f.word ≠ none)

/-- `STATUS` at the wires is `{res_valid, err, err_cause, res_k}` (R91): it is the registers' `STATUS` (R19), except that bit 8 is 0
while a legal SPLIT is in flight (R94 (c)). That the wires follow R91 where the two rules differ, and the registers R19, is the model's
reading (log entry 13). -/
def Obligations.StatusAtTheWires : Prop :=
  ∀ s : SignalState,
    (s.outputs.status.getLsbD 8 = s.outputs.resValid ∧ s.outputs.status.getLsbD 7 = s.outputs.err ∧
      s.outputs.status.extractLsb' 5 2 = s.outputs.errCause ∧ s.outputs.status.extractLsb' 0 5 = s.outputs.resK) ∧
    ((∀ f, s.inFlight = some f → rejection f.word ≠ none) → s.outputs.status = s.engine.status) ∧
    ∀ f, s.inFlight = some f → rejection f.word = none →
      s.outputs.status.getLsbD 8 = false ∧ s.outputs.status.extractLsb' 0 8 = s.engine.status.extractLsb' 0 8

/-- An accepted command, undisturbed by `rst`, takes its whole effect `latency` edges after acceptance and none before; until then
`cmd_ready` is 0, the registers stand, and `res_valid` is 0 if it is a legal SPLIT, whatever the host presents (R94). -/
def Obligations.AcceptedCommandCompletes : Prop :=
  ∀ (latency : CommandWord → Nat) (s : SignalState) (p : PortsIn) (ps : List PortsIn),
    s.outputs.cmdReady = true → p.rst = false → p.cmdValid = true → (∀ q ∈ ps, q.rst = false) →
    (ps.length < latency p.cmdWord →
      (s.edges latency (p :: ps)).engine = s.engine ∧
      (s.edges latency (p :: ps)).outputs.cmdReady = false ∧
      (rejection p.cmdWord = none → (s.edges latency (p :: ps)).outputs.resValid = false)) ∧
    (ps.length = latency p.cmdWord →
      (s.edges latency (p :: ps)).engine = s.engine.issue p.cmdWord ∧
      (s.edges latency (p :: ps)).outputs.cmdReady = true)

/-- `rst` at an edge abandons a command in flight: the flags are 0 and the engine is ready at once, and from then on nothing shows
what was in flight or held before: after the same later inputs two engines show the same handshake and flags, and the same result
wherever `VALID` is 1 (R87, R88, R89). While `VALID` is 0 the result is unspecified and nothing is said of it. That `rst` at an edge
resets, whichever `RESET_KIND`, is the model's reading (log entry 12). -/
def Obligations.ResetAbandonsCommand : Prop :=
  ∀ (latency : CommandWord → Nat) (s s' : SignalState) (p : PortsIn), p.rst = true →
    ((s.edge latency p).outputs.cmdReady = true ∧
      (s.edge latency p).engine.valid = false ∧ (s.edge latency p).engine.err = false ∧
      (s.edge latency p).engine.errCause = 0#2) ∧
    ∀ (ps : List PortsIn) (t t' : SignalState), s.edges latency (p :: ps) = t → s'.edges latency (p :: ps) = t' →
      t.outputs.cmdReady = t'.outputs.cmdReady ∧ t.outputs.resValid = t'.outputs.resValid ∧
      t.outputs.err = t'.outputs.err ∧ t.outputs.errCause = t'.outputs.errCause ∧
      t.engine.valid = t'.engine.valid ∧
      (t.engine.valid = true → t.outputs.resK = t'.outputs.resK ∧ t.outputs.resData = t'.outputs.resData)

/-- While `cmd_ready` is 0 nothing the host presents has any effect, and at an edge where nothing completes and `rst` is 0 the
output wires other than `cmd_ready` and `res_valid` stand still (R94 (a), (e)). At an edge with `rst` the equality of the
unspecified registers in the first clause is the model's (log entry 1). -/
def Obligations.BusyIgnoresAndOutputsStand : Prop :=
  ∀ (latency : CommandWord → Nat) (s : SignalState) (p : PortsIn),
    (s.outputs.cmdReady = false → ∀ valid word,
      s.edge latency { p with cmdValid := valid, cmdWord := word } = s.edge latency p) ∧
    (s.completedAt latency p = [] →
      (s.edge latency p).outputs.resK = s.outputs.resK ∧ (s.edge latency p).outputs.resData = s.outputs.resData ∧
      (s.edge latency p).outputs.err = s.outputs.err ∧ (s.edge latency p).outputs.errCause = s.outputs.errCause)

/-- The engine at its wires refines the machine of host actions, for every latency and every sequence of inputs: the registers
after the edges are those after running, in order, the actions that took their effect (R21, R30 (b), R32 (a), R92, R94). That after a `Reset`
both hold the same unspecified values, and the clause on `draws`, are the model's choice (log entries 1 and 7), and that `rst` at an
edge is a `Reset` is its reading (log entry 12). -/
def Obligations.WiresRefineHostActions : Prop :=
  ∀ (latency : CommandWord → Nat) (s : SignalState) (ps : List PortsIn),
    ∃ t, run (SignalState.completed latency s ps).length
        { engine := s.engine, pending := SignalState.completed latency s ps, reads := [], stream := s.stream,
          draws := s.draws } = .next t ∧
      t.pending = [] ∧ t.engine = (s.edges latency ps).engine ∧ t.draws = (s.edges latency ps).draws

/-- Several engines share nothing: a step of one is its own step and leaves every other as it was (R85). -/
def Obligations.EnginesAreIndependent : Prop :=
  ∀ (sys : List State) (j : Nat) (s : State), sys[j]? = some s →
    ∃ sys' t, systemStep sys j = .next sys' ∧ step s = .next t ∧ sys'[j]? = some t ∧
      sys'.length = sys.length ∧ ∀ i, i ≠ j → sys'[i]? = sys[i]?

/-- The assembler: `SPLIT k, value` and `SPLIT.k value` assemble to the one word that encodes them, and `k = 0`, `k > 24` and
`value > 0xFFFFFF` are refused (R44). -/
def Obligations.AssemblerEncodes : Prop :=
  ∀ k value : Nat,
    (1 ≤ k → k ≤ 24 → value ≤ 0xFFFFFF → ∃ i : Instr, i.fanout = k ∧ i.value.toNat = value ∧
      assemble (.split k value) = some [.issue (encode i)] ∧ assemble (.form k value) = some [.issue (encode i)]) ∧
    ((k = 0 ∨ 24 < k ∨ 0xFFFFFF < value) →
      assemble (.split k value) = none ∧ assemble (.form k value) = none)

/-- The pseudo-instructions expand to the commands and Reads R45 shows, and to nothing else. -/
def Obligations.PseudoInstructions : Prop :=
  ∀ v : Value,
    assemble (.coord v.toNat) = some [.issue (encode (.split2 v))] ∧
    assemble (.color v.toNat) = some [.issue (encode (.split3 v))] ∧
    assemble (.pixel v.toNat) = some [.issue (encode (.split2 v)), .read, .issue (encode (.split3 v)), .read]

/-- The pseudo-instruction PIXEL gives the host the coordinates and then the colour of its value, from any state (R45, R72). -/
def Obligations.PixelReadsBothResults : Prop :=
  ∀ (s : State) (v : Value) (acts rest : List HostAction),
    assemble (.pixel v.toNat) = some acts → s.pending = acts ++ rest →
    ∃ t coord colour, run 4 s = .next t ∧ t.pending = rest ∧ t.reads = colour :: coord :: s.reads ∧
      redistribute v.toNat 2 24 = some (coord.tuple.map BitVec.toNat) ∧
      redistribute v.toNat 3 24 = some (colour.tuple.map BitVec.toNat)
end

