-- ==== Sys2Proof/Laws/State.lean ====
section
/-! SUPPORT. One lemma per field per update of the registers and of the machine state, true by unfolding once, so that later
proofs never unfold a record update. -/

namespace Sys2Proof.Machine

@[simp] theorem Engine.split_res (e : Engine) (k : Nat) (v : Value) : (e.split k v).res = splitResult k v := rfl
@[simp] theorem Engine.split_resK (e : Engine) (k : Nat) (v : Value) : (e.split k v).resK = BitVec.ofNat 5 k := rfl
@[simp] theorem Engine.split_valid (e : Engine) (k : Nat) (v : Value) : (e.split k v).valid = true := rfl
@[simp] theorem Engine.split_err (e : Engine) (k : Nat) (v : Value) : (e.split k v).err = e.err := by simp only [Engine.split]
@[simp] theorem Engine.split_errCause (e : Engine) (k : Nat) (v : Value) : (e.split k v).errCause = e.errCause := by simp only [Engine.split]

@[simp] theorem Engine.commandError_res (e : Engine) (c : Cause) : (e.commandError c).res = e.res := rfl
@[simp] theorem Engine.commandError_resK (e : Engine) (c : Cause) : (e.commandError c).resK = e.resK := rfl
@[simp] theorem Engine.commandError_valid (e : Engine) (c : Cause) : (e.commandError c).valid = e.valid := rfl
@[simp] theorem Engine.commandError_err (e : Engine) (c : Cause) : (e.commandError c).err = true := rfl
@[simp] theorem Engine.commandError_errCause (e : Engine) (c : Cause) :
    (e.commandError c).errCause = keptCause e c := rfl

@[simp] theorem Engine.afterReset_valid (n d : Nat) : (Engine.afterReset n d).valid = false := rfl
@[simp] theorem Engine.afterReset_err (n d : Nat) : (Engine.afterReset n d).err = false := rfl
@[simp] theorem Engine.afterReset_errCause (n d : Nat) : (Engine.afterReset n d).errCause = 0#2 := rfl

@[simp] theorem State.split_engine (s : State) (k : Nat) (v : Value) : (s.split k v).engine = s.engine.split k v := rfl
@[simp] theorem State.split_pending (s : State) (k : Nat) (v : Value) : (s.split k v).pending = s.pending := by simp only [State.split]
@[simp] theorem State.split_reads (s : State) (k : Nat) (v : Value) : (s.split k v).reads = s.reads := by simp only [State.split]
@[simp] theorem State.split_stream (s : State) (k : Nat) (v : Value) : (s.split k v).stream = s.stream := by simp only [State.split]
@[simp] theorem State.split_draws (s : State) (k : Nat) (v : Value) : (s.split k v).draws = s.draws := by simp only [State.split]

@[simp] theorem State.commandError_engine (s : State) (c : Cause) :
    (s.commandError c).engine = s.engine.commandError c := rfl
@[simp] theorem State.commandError_pending (s : State) (c : Cause) : (s.commandError c).pending = s.pending := rfl
@[simp] theorem State.commandError_reads (s : State) (c : Cause) : (s.commandError c).reads = s.reads := rfl
@[simp] theorem State.commandError_stream (s : State) (c : Cause) : (s.commandError c).stream = s.stream := rfl
@[simp] theorem State.commandError_draws (s : State) (c : Cause) : (s.commandError c).draws = s.draws := rfl

@[simp] theorem State.doReset_engine (s : State) : s.doReset.engine = Engine.afterReset s.stream s.draws := rfl
@[simp] theorem State.doReset_pending (s : State) : s.doReset.pending = s.pending := by simp only [State.doReset]
@[simp] theorem State.doReset_reads (s : State) : s.doReset.reads = s.reads := by simp only [State.doReset]
@[simp] theorem State.doReset_stream (s : State) : s.doReset.stream = s.stream := by simp only [State.doReset]
@[simp] theorem State.doReset_draws (s : State) : s.doReset.draws = s.draws + 1 := rfl

@[simp] theorem State.doRead_engine (s : State) : s.doRead.engine = s.engine := by simp only [State.doRead]
@[simp] theorem State.doRead_pending (s : State) : s.doRead.pending = s.pending := by simp only [State.doRead]
@[simp] theorem State.doRead_reads (s : State) :
    s.doRead.reads = s.engine.readView s.stream s.draws :: s.reads := rfl
@[simp] theorem State.doRead_stream (s : State) : s.doRead.stream = s.stream := by simp only [State.doRead]
@[simp] theorem State.doRead_draws (s : State) : s.doRead.draws = s.draws + 1 := rfl

end Sys2Proof.Machine
end

