-- ==== Sys2Proof/Laws/Ops.lean ====
section
/-! SUPPORT. One lemma per shared operation and for the step function: everything each can do, so that later proofs cite it and
do not unfold the operation again. -/

namespace Sys2Proof.Machine

/-- Register `c` of a latched tuple. -/
theorem latch_getElem (comps : List Nat) (c : Nat) (h : c < 24) :
    (latch comps)[c] = BitVec.ofNat 24 (comps.getD c 0) := by
  simp [latch]

/-- A Read of a valid result returns the registers (R30 (c)). -/
theorem readView_of_valid (e : Engine) (n d : Nat) (h : e.valid = true) : e.readView n d = e := by
  simp [Engine.readView, h]

/-- A Read never changes the three flags it returns. -/
theorem readView_flags (e : Engine) (n d : Nat) :
    (e.readView n d).valid = e.valid ∧ (e.readView n d).err = e.err ∧ (e.readView n d).errCause = e.errCause := by
  unfold Engine.readView
  split <;> simp

/-- Where the fields of a packed `STATUS` stand (R19, R91). -/
theorem packStatus_fields (valid err : Bool) (cause : CauseCode) (k : FanoutField) :
    (packStatus valid err cause k).getLsbD 8 = valid ∧ (packStatus valid err cause k).getLsbD 7 = err ∧
    (packStatus valid err cause k).extractLsb' 5 2 = cause ∧ (packStatus valid err cause k).extractLsb' 0 5 = k := by
  revert valid err cause k
  decide

/-- Every instruction's meaning is the shared SPLIT at its own fan-out and value. -/
theorem exec_eq_split (i : Instr) (s : State) : exec i s = .next (s.split i.fanout i.value) := by
  cases i <;> rfl

/-- What an issued word does, legal or not. -/
theorem step_of_issue {s : State} {w : CommandWord} {rest : List HostAction} (h : s.pending = .issue w :: rest) :
    step s = .next { s with pending := rest, engine := s.engine.issue w } := by
  simp only [step, State.nextAction, h, Engine.issue]
  cases decode w with
  | instr i => exact exec_eq_split i _
  | illegal c => rfl

theorem step_of_reset {s : State} {rest : List HostAction} (h : s.pending = .reset :: rest) :
    step s = .next (State.doReset { s with pending := rest }) := by
  simp only [step, State.nextAction, h]

theorem step_of_read {s : State} {rest : List HostAction} (h : s.pending = .read :: rest) :
    step s = .next (State.doRead { s with pending := rest }) := by
  simp only [step, State.nextAction, h]

/-- Everything a step can do. -/
theorem step_cases {s t : State} (h : step s = .next t) :
    (s.pending = [] ∧ t = s) ∨
    (∃ rest, s.pending = .reset :: rest ∧ t = State.doReset { s with pending := rest }) ∨
    (∃ rest, s.pending = .read :: rest ∧ t = State.doRead { s with pending := rest }) ∨
    (∃ w rest, s.pending = .issue w :: rest ∧ t = { s with pending := rest, engine := s.engine.issue w }) := by
  match hp : s.pending with
  | [] =>
    simp only [step, State.nextAction, hp, Host.Outcome.next.injEq] at h
    exact .inl ⟨rfl, h.symm⟩
  | .reset :: rest =>
    rw [step_of_reset hp, Host.Outcome.next.injEq] at h
    exact .inr (.inl ⟨rest, rfl, h.symm⟩)
  | .read :: rest =>
    rw [step_of_read hp, Host.Outcome.next.injEq] at h
    exact .inr (.inr (.inl ⟨rest, rfl, h.symm⟩))
  | .issue w :: rest =>
    rw [step_of_issue hp, Host.Outcome.next.injEq] at h
    exact .inr (.inr (.inr ⟨w, rest, rfl, h.symm⟩))

theorem run_zero (s : State) : run 0 s = .next s := rfl

/-- A run is its first step and the run from there. -/
theorem run_succ {n : Nat} {s t : State} (h : step s = .next t) : run (n + 1) s = run n t := by
  have hs : core.step s = .next t := h
  simp only [run, Host.Core.run, hs]
  rfl

end Sys2Proof.Machine
end

