-- ==== Sys2Proof/Laws/PerInstr.lean ====
section
/-! SUPPORT. Statements about every instruction, one lemma per constructor. TableRow: the encoded word is covered by the
instruction's own row of the opcode table, mask `0xFF000000`, match `k * 2^24` (30_encoding.md R39). -/

namespace Sys2Proof.Laws

/-- Format C with a 5-bit fan-out is covered by that fan-out's row. -/
theorem row_covers_format (k : Nat) (v : Value) (hk : k < 32) :
    (opcodeRow k).covers (0#3 ++ BitVec.ofNat 5 k ++ v) = true := by
  have hv := v.isLt
  have hcat : (0#3 ++ BitVec.ofNat 5 k ++ v : BitVec (3 + 5 + 24)).toNat = 2 ^ 24 * k + v.toNat := by
    simp only [BitVec.toNat_append, BitVec.toNat_ofNat, Nat.shiftLeft_eq, Nat.zero_mod, Nat.zero_mul, Nat.zero_or,
      Nat.mod_eq_of_lt hk, Nat.mul_comm k, ← Nat.two_pow_add_eq_or_of_lt hv]
  have hmask : (0xFF000000#32).toNat = 2 ^ 24 * (2 ^ 8 - 1) + 0 := by decide
  simp only [OpcodeRow.covers, opcodeRow, beq_iff_eq]
  apply BitVec.eq_of_toNat_eq
  rw [BitVec.toNat_and, hcat, hmask, BitVec.toNat_ofNat, Nat.mod_eq_of_lt (by omega : k * 2 ^ 24 < 2 ^ 32)]
  apply Nat.eq_of_testBit_eq
  intro j
  have hbyte : k.testBit (j - 24) = true → j - 24 < 8 := fun hb =>
    (Nat.pow_lt_pow_iff_right (by decide : 1 < 2)).1
      (Nat.lt_of_le_of_lt (Nat.ge_two_pow_of_testBit hb) (Nat.lt_trans hk (by decide)))
  rw [Nat.testBit_and, Nat.testBit_two_pow_mul_add _ hv, Nat.testBit_two_pow_mul_add _ (by decide), Nat.mul_comm k,
    Nat.testBit_two_pow_mul, Nat.testBit_two_pow_sub_one]
  by_cases hj : j < 24
  · simp [hj]
  · cases hb : k.testBit (j - 24) <;> simp_all

/-- The encoded word is covered by the row of the instruction's fan-out. -/
def TableRow.Statement (i : Instr) : Prop := (opcodeRow i.fanout).covers (encode i) = true

theorem TableRow.split1 (value : Value) : TableRow.Statement (.split1 value) := row_covers_format 1 value (by decide)
theorem TableRow.split2 (value : Value) : TableRow.Statement (.split2 value) := row_covers_format 2 value (by decide)
theorem TableRow.split3 (value : Value) : TableRow.Statement (.split3 value) := row_covers_format 3 value (by decide)
theorem TableRow.split4 (value : Value) : TableRow.Statement (.split4 value) := row_covers_format 4 value (by decide)
theorem TableRow.split5 (value : Value) : TableRow.Statement (.split5 value) := row_covers_format 5 value (by decide)
theorem TableRow.split6 (value : Value) : TableRow.Statement (.split6 value) := row_covers_format 6 value (by decide)
theorem TableRow.split7 (value : Value) : TableRow.Statement (.split7 value) := row_covers_format 7 value (by decide)
theorem TableRow.split8 (value : Value) : TableRow.Statement (.split8 value) := row_covers_format 8 value (by decide)
theorem TableRow.split9 (value : Value) : TableRow.Statement (.split9 value) := row_covers_format 9 value (by decide)
theorem TableRow.split10 (value : Value) : TableRow.Statement (.split10 value) := row_covers_format 10 value (by decide)
theorem TableRow.split11 (value : Value) : TableRow.Statement (.split11 value) := row_covers_format 11 value (by decide)
theorem TableRow.split12 (value : Value) : TableRow.Statement (.split12 value) := row_covers_format 12 value (by decide)
theorem TableRow.split13 (value : Value) : TableRow.Statement (.split13 value) := row_covers_format 13 value (by decide)
theorem TableRow.split14 (value : Value) : TableRow.Statement (.split14 value) := row_covers_format 14 value (by decide)
theorem TableRow.split15 (value : Value) : TableRow.Statement (.split15 value) := row_covers_format 15 value (by decide)
theorem TableRow.split16 (value : Value) : TableRow.Statement (.split16 value) := row_covers_format 16 value (by decide)
theorem TableRow.split17 (value : Value) : TableRow.Statement (.split17 value) := row_covers_format 17 value (by decide)
theorem TableRow.split18 (value : Value) : TableRow.Statement (.split18 value) := row_covers_format 18 value (by decide)
theorem TableRow.split19 (value : Value) : TableRow.Statement (.split19 value) := row_covers_format 19 value (by decide)
theorem TableRow.split20 (value : Value) : TableRow.Statement (.split20 value) := row_covers_format 20 value (by decide)
theorem TableRow.split21 (value : Value) : TableRow.Statement (.split21 value) := row_covers_format 21 value (by decide)
theorem TableRow.split22 (value : Value) : TableRow.Statement (.split22 value) := row_covers_format 22 value (by decide)
theorem TableRow.split23 (value : Value) : TableRow.Statement (.split23 value) := row_covers_format 23 value (by decide)
theorem TableRow.split24 (value : Value) : TableRow.Statement (.split24 value) := row_covers_format 24 value (by decide)

end Sys2Proof.Laws
end

