-- ==== Sys2Proof/Tests/Slice0.lean ====
section
/-! SUPPORT. The model's own tests: decoding and SPLIT against the spec's vectors (95_test_vectors.md, and R69's table), the
assembler's checks, single steps, and for every statement with hypotheses a concrete case that meets them (`witness_…`). -/

open Sys2Proof Sys2Proof.Machine

namespace Sys2Proof.Tests

/-- What a test looks at in an outcome: `RES`, `RES_K`, `VALID`, `ERR`, `ERR_CAUSE`. -/
def after (o : Host.Outcome State Fault Refusal) : Option (List Nat × Nat × Bool × Bool × Nat) :=
  match o with
  | .next t => some (t.engine.res.toList.map BitVec.toNat, t.engine.resK.toNat, t.engine.valid, t.engine.err, t.engine.errCause.toNat)
  | .fault _ => none
  | .refused _ => none

/-- `VALID`, `ERR`, `ERR_CAUSE` of an outcome. -/
def flagsAfter (o : Host.Outcome State Fault Refusal) : Option (Bool × Bool × Nat) :=
  match o with
  | .next t => some (t.engine.valid, t.engine.err, t.engine.errCause.toNat)
  | .fault _ => none
  | .refused _ => none

/-- The registers holding a tuple as the result of a SPLIT, with an error record. -/
def holding (tuple : List Nat) (err : Bool) (cause : Nat) : Engine :=
  ⟨latch tuple, BitVec.ofNat 5 tuple.length, true, err, BitVec.ofNat 2 cause⟩

/-- A state with given registers and host actions. -/
def stateOf (e : Engine) (pending : List HostAction) : State := ⟨e, pending, [], 0, 0⟩

/-- The start state of rows 5 to 9 of 95_test_vectors.md section 2.5. -/
def threeTuple : State := stateOf (holding [0xA7, 0x6D, 0xBF] false 0) []

/-! ## The assembler's checks: an ill-formed line for each, refused (R44) -/

theorem test_wf_fanout_zero : (AsmLine.split 0 5).wellFormed = false := by decide
theorem test_wf_fanout_above_max : (AsmLine.form 25 5).wellFormed = false := by decide
theorem test_wf_split_value : (AsmLine.split 3 0x1000000).wellFormed = false := by decide
theorem test_wf_form_value : (AsmLine.form 24 0x1000000).wellFormed = false := by decide
theorem test_wf_word : (AsmLine.word 0x100000000).wellFormed = false := by decide
theorem test_wf_coord_value : (AsmLine.coord 0x1000000).wellFormed = false := by decide
theorem test_wf_color_value : (AsmLine.color 0x1000000).wellFormed = false := by decide
theorem test_wf_pixel_value : (AsmLine.pixel 0x1000000).wellFormed = false := by decide
theorem test_wf_boundaries : (AsmLine.split 1 0).wellFormed ∧ (AsmLine.split 24 0xFFFFFF).wellFormed := by decide

/-- Source: R44's own example of an illegal word given as data. -/
theorem test_assemble_word : assemble (.word 0x00000005) = some [.issue 0x00000005#32] := by decide

/-! ## Decoding (R40; 95_test_vectors.md section 2.4) -/

/-- Every row of the opcode table: the word written out from format C, `0b000`, then `K`, then `VALUE` (R34, R69's prefix column). -/
theorem test_decode_every_row :
    decode 0x01ABCDEF#32 = .instr (.split1 0xABCDEF#24) ∧
    decode 0x02ABCDEF#32 = .instr (.split2 0xABCDEF#24) ∧
    decode 0x03ABCDEF#32 = .instr (.split3 0xABCDEF#24) ∧
    decode 0x04ABCDEF#32 = .instr (.split4 0xABCDEF#24) ∧
    decode 0x05ABCDEF#32 = .instr (.split5 0xABCDEF#24) ∧
    decode 0x06ABCDEF#32 = .instr (.split6 0xABCDEF#24) ∧
    decode 0x07ABCDEF#32 = .instr (.split7 0xABCDEF#24) ∧
    decode 0x08ABCDEF#32 = .instr (.split8 0xABCDEF#24) ∧
    decode 0x09ABCDEF#32 = .instr (.split9 0xABCDEF#24) ∧
    decode 0x0AABCDEF#32 = .instr (.split10 0xABCDEF#24) ∧
    decode 0x0BABCDEF#32 = .instr (.split11 0xABCDEF#24) ∧
    decode 0x0CABCDEF#32 = .instr (.split12 0xABCDEF#24) ∧
    decode 0x0DABCDEF#32 = .instr (.split13 0xABCDEF#24) ∧
    decode 0x0EABCDEF#32 = .instr (.split14 0xABCDEF#24) ∧
    decode 0x0FABCDEF#32 = .instr (.split15 0xABCDEF#24) ∧
    decode 0x10ABCDEF#32 = .instr (.split16 0xABCDEF#24) ∧
    decode 0x11ABCDEF#32 = .instr (.split17 0xABCDEF#24) ∧
    decode 0x12ABCDEF#32 = .instr (.split18 0xABCDEF#24) ∧
    decode 0x13ABCDEF#32 = .instr (.split19 0xABCDEF#24) ∧
    decode 0x14ABCDEF#32 = .instr (.split20 0xABCDEF#24) ∧
    decode 0x15ABCDEF#32 = .instr (.split21 0xABCDEF#24) ∧
    decode 0x16ABCDEF#32 = .instr (.split22 0xABCDEF#24) ∧
    decode 0x17ABCDEF#32 = .instr (.split23 0xABCDEF#24) ∧
    decode 0x18ABCDEF#32 = .instr (.split24 0xABCDEF#24) := by
  decide

theorem test_decode_rejections :
    decode 0x00000000#32 = .illegal .fanoutZero ∧ decode 0x00FFFFFF#32 = .illegal .fanoutZero ∧
    decode 0x19000000#32 = .illegal .fanoutRange ∧ decode 0x1F000000#32 = .illegal .fanoutRange ∧
    decode 0x20000000#32 = .illegal .illegalOp ∧ decode 0x22000001#32 = .illegal .illegalOp ∧
    decode 0x80000000#32 = .illegal .illegalOp ∧ decode 0xE1000005#32 = .illegal .illegalOp ∧
    decode 0xFFFFFFFF#32 = .illegal .illegalOp := by
  decide

theorem test_table_word : decodeTableWord 32 0x05FFFFFF = some (.split5 0xFFFFFF#24) ∧ decodeTableWord 32 0x1F000000 = none := by decide

/-- The first step after reset runs the word placed for it: R66's example, `SPLIT 3, 0x000004`. -/
theorem test_first_step_after_reset :
    after (step (State.reset.withFetchWord 32 0x03000004)) = some ([0, 0, 1] ++ List.replicate 21 0, 3, true, false, 0) := by
  decide

/-! ## Single steps (95_test_vectors.md section 2.5) -/

/-- Row 2: the unspecified registers stay out of sight. -/
theorem test_fanout_zero_after_reset :
    flagsAfter (step (State.reset.withFetchWord 32 0x00000003)) = some (false, true, 2) := by decide

theorem test_fanout_range_after_reset :
    flagsAfter (step (State.reset.withFetchWord 32 0x19000003)) = some (false, true, 3) := by decide

theorem test_illegal_op_after_reset :
    flagsAfter (step (State.reset.withFetchWord 32 0x20000003)) = some (false, true, 1) := by decide

/-- Row 7: a rejected word leaves the result in place. -/
theorem test_error_keeps_result :
    after (step (threeTuple.withFetchWord 32 0x00FFFFFF)) = some ([0xA7, 0x6D, 0xBF] ++ List.replicate 21 0, 3, true, true, 2) := by
  decide

/-- Row 8: a second error changes nothing. -/
theorem test_second_error :
    after (step (stateOf (holding [0xA7, 0x6D, 0xBF] true 2) [.issue 0x40000000#32])) =
      some ([0xA7, 0x6D, 0xBF] ++ List.replicate 21 0, 3, true, true, 2) := by
  decide

/-- Row 10: a legal SPLIT runs although an error is recorded. -/
theorem test_split_with_error :
    after (step (stateOf (holding [0xA7, 0x6D, 0xBF] true 3) [.issue 0x18800000#32])) =
      some (List.replicate 23 0 ++ [1], 24, true, true, 3) := by
  decide

/-- Rows 7 and 1: `STATUS` (R19). -/
theorem test_status :
    (holding [0xA7, 0x6D, 0xBF] true 2).status = 0x1C3#9 ∧ (holding [1, 1] false 0).status = 0x102#9 := by decide

/-- P5, step 5: `Reset` clears the error. -/
theorem test_reset_clears :
    flagsAfter (step (stateOf (holding [1, 1] true 1) [.reset])) = some (false, false, 0) := by decide

/-- P1, step 3: a Read returns the state. -/
theorem test_read :
    (match step (stateOf (holding [1, 1] false 0) [.read]) with
      | .next t => t.reads
      | .fault _ => []
      | .refused _ => []) = [holding [1, 1] false 0] := by decide

/-! ## The transform (95_test_vectors.md sections 1.1 and 2) -/

theorem test_source_cases :
    redistribute 0 2 24 = some [0, 0] ∧ redistribute 0 3 24 = some [0, 0, 0] ∧
    redistribute 1 2 24 = some [1, 0] ∧ redistribute 2 2 24 = some [0, 1] ∧
    redistribute (2 ^ 24 - 1) 2 24 = some [4095, 4095] ∧ redistribute (2 ^ 24 - 1) 3 24 = some [255, 255, 255] := by
  decide

/-- Section 4.2: pixel `(0x1BB, 0xFAF)` comes from `0xABCDEF`. -/
theorem test_merge : merge [0x1BB, 0xFAF] 2 24 = 0xABCDEF := by decide

theorem test_rounds_agree : redRounds 0xABCDEF 7 24 = [0xF, 0x7, 0xD, 0x7, 0x2, 0x5, 0x1] := by decide

/-! ## The wires (R87, R91, R94) -/

/-- `rst` between edges acts at once only if reset is asynchronous (D27). -/
theorem test_reset_kinds :
    (SignalState.rstRises .asynchronous ⟨holding [1] false 0, none, 0, 0⟩).engine.valid = false ∧
    (SignalState.rstRises .synchronous ⟨holding [1] false 0, none, 0, 0⟩).engine.valid = true := by decide

/-- `STATUS` at the wires: bit 8 is 0 only while a legal SPLIT is in flight (R91, R94 (c)). -/
theorem test_status_at_wires :
    (⟨holding [0xA7, 0x6D, 0xBF] true 2, some ⟨0x01000000#32, 3⟩, 0, 0⟩ : SignalState).outputs.status = 0x0C3#9 ∧
    (⟨holding [0xA7, 0x6D, 0xBF] true 2, some ⟨0x20000000#32, 3⟩, 0, 0⟩ : SignalState).outputs.status = 0x1C3#9 ∧
    (⟨holding [0xA7, 0x6D, 0xBF] true 2, none, 0, 0⟩ : SignalState).outputs.status = 0x1C3#9 := by decide

/-- After reset the engine is ready at once (R88). -/
theorem test_ready_after_reset : SignalState.reset.outputs.cmdReady = true := by decide

/-! ## SPLIT, every form -/

/-- Source: 95_test_vectors.md section 2.2, `k = 1`, `0xABCDEF`. -/
theorem test_split1_vector : after (exec (.split1 0xABCDEF#24) threeTuple) = some ([0xABCDEF, 0x0, 0x0, 0x0, 0x0, 0x0, 0x0, 0x0, 0x0, 0x0, 0x0, 0x0, 0x0, 0x0, 0x0, 0x0, 0x0, 0x0, 0x0, 0x0, 0x0, 0x0, 0x0, 0x0], 1, true, false, 0) := by
  decide

/-- Source: 95_test_vectors.md section 2.1, `k = 2`, `0xABCDEF`. -/
theorem test_split2_vector : after (exec (.split2 0xABCDEF#24) threeTuple) = some ([0x1BB, 0xFAF, 0x0, 0x0, 0x0, 0x0, 0x0, 0x0, 0x0, 0x0, 0x0, 0x0, 0x0, 0x0, 0x0, 0x0, 0x0, 0x0, 0x0, 0x0, 0x0, 0x0, 0x0, 0x0], 2, true, false, 0) := by
  decide

/-- Source: 95_test_vectors.md section 2.1, `k = 3`, `0xABCDEF`. -/
theorem test_split3_vector : after (exec (.split3 0xABCDEF#24) threeTuple) = some ([0xA7, 0x6D, 0xBF, 0x0, 0x0, 0x0, 0x0, 0x0, 0x0, 0x0, 0x0, 0x0, 0x0, 0x0, 0x0, 0x0, 0x0, 0x0, 0x0, 0x0, 0x0, 0x0, 0x0, 0x0], 3, true, false, 0) := by
  decide

/-- Source: 95_test_vectors.md section 2.2, `k = 4`, `0xABCDEF`. -/
theorem test_split4_vector : after (exec (.split4 0xABCDEF#24) threeTuple) = some ([0x15, 0x33, 0xF, 0x3F, 0x0, 0x0, 0x0, 0x0, 0x0, 0x0, 0x0, 0x0, 0x0, 0x0, 0x0, 0x0, 0x0, 0x0, 0x0, 0x0, 0x0, 0x0, 0x0, 0x0], 4, true, false, 0) := by
  decide

/-- Source: 95_test_vectors.md section 2.2, `k = 5`, `0xABCDEF`. -/
theorem test_split5_vector : after (exec (.split5 0xABCDEF#24) threeTuple) = some ([0xF, 0x1F, 0xB, 0x13, 0xC, 0x0, 0x0, 0x0, 0x0, 0x0, 0x0, 0x0, 0x0, 0x0, 0x0, 0x0, 0x0, 0x0, 0x0, 0x0, 0x0, 0x0, 0x0, 0x0], 5, true, false, 0) := by
  decide

/-- Source: 41_split.md R69, all-ones column, `k = 6`. -/
theorem test_split6_all_ones : after (exec (.split6 0xFFFFFF#24) threeTuple) = some ([0xF, 0xF, 0xF, 0xF, 0xF, 0xF, 0x0, 0x0, 0x0, 0x0, 0x0, 0x0, 0x0, 0x0, 0x0, 0x0, 0x0, 0x0, 0x0, 0x0, 0x0, 0x0, 0x0, 0x0], 6, true, false, 0) := by
  decide

/-- Source: 95_test_vectors.md section 2.2, `k = 7`, `0xABCDEF`. -/
theorem test_split7_vector : after (exec (.split7 0xABCDEF#24) threeTuple) = some ([0xF, 0x7, 0xD, 0x7, 0x2, 0x5, 0x1, 0x0, 0x0, 0x0, 0x0, 0x0, 0x0, 0x0, 0x0, 0x0, 0x0, 0x0, 0x0, 0x0, 0x0, 0x0, 0x0, 0x0], 7, true, false, 0) := by
  decide

/-- Source: 95_test_vectors.md section 2.2, `k = 8`, `0xABCDEF`. -/
theorem test_split8_vector : after (exec (.split8 0xABCDEF#24) threeTuple) = some ([0x7, 0x5, 0x3, 0x7, 0x0, 0x5, 0x3, 0x7, 0x0, 0x0, 0x0, 0x0, 0x0, 0x0, 0x0, 0x0, 0x0, 0x0, 0x0, 0x0, 0x0, 0x0, 0x0, 0x0], 8, true, false, 0) := by
  decide

/-- Source: 41_split.md R69, all-ones column, `k = 9`. -/
theorem test_split9_all_ones : after (exec (.split9 0xFFFFFF#24) threeTuple) = some ([0x7, 0x7, 0x7, 0x7, 0x7, 0x7, 0x3, 0x3, 0x3, 0x0, 0x0, 0x0, 0x0, 0x0, 0x0, 0x0, 0x0, 0x0, 0x0, 0x0, 0x0, 0x0, 0x0, 0x0], 9, true, false, 0) := by
  decide

/-- Source: 41_split.md R69, all-ones column, `k = 10`. -/
theorem test_split10_all_ones : after (exec (.split10 0xFFFFFF#24) threeTuple) = some ([0x7, 0x7, 0x7, 0x7, 0x3, 0x3, 0x3, 0x3, 0x3, 0x3, 0x0, 0x0, 0x0, 0x0, 0x0, 0x0, 0x0, 0x0, 0x0, 0x0, 0x0, 0x0, 0x0, 0x0], 10, true, false, 0) := by
  decide

/-- Source: 41_split.md R69, all-ones column, `k = 11`. -/
theorem test_split11_all_ones : after (exec (.split11 0xFFFFFF#24) threeTuple) = some ([0x7, 0x7, 0x3, 0x3, 0x3, 0x3, 0x3, 0x3, 0x3, 0x3, 0x3, 0x0, 0x0, 0x0, 0x0, 0x0, 0x0, 0x0, 0x0, 0x0, 0x0, 0x0, 0x0, 0x0], 11, true, false, 0) := by
  decide

/-- Source: 95_test_vectors.md section 2.2, `k = 12`, `0xABCDEF`. -/
theorem test_split12_vector : after (exec (.split12 0xABCDEF#24) threeTuple) = some ([0x1, 0x1, 0x3, 0x3, 0x2, 0x3, 0x1, 0x3, 0x1, 0x2, 0x1, 0x3, 0x0, 0x0, 0x0, 0x0, 0x0, 0x0, 0x0, 0x0, 0x0, 0x0, 0x0, 0x0], 12, true, false, 0) := by
  decide

/-- Source: 41_split.md R69, all-ones column, `k = 13`. -/
theorem test_split13_all_ones : after (exec (.split13 0xFFFFFF#24) threeTuple) = some ([0x3, 0x3, 0x3, 0x3, 0x3, 0x3, 0x3, 0x3, 0x3, 0x3, 0x3, 0x1, 0x1, 0x0, 0x0, 0x0, 0x0, 0x0, 0x0, 0x0, 0x0, 0x0, 0x0, 0x0], 13, true, false, 0) := by
  decide

/-- Source: 41_split.md R69, all-ones column, `k = 14`. -/
theorem test_split14_all_ones : after (exec (.split14 0xFFFFFF#24) threeTuple) = some ([0x3, 0x3, 0x3, 0x3, 0x3, 0x3, 0x3, 0x3, 0x3, 0x3, 0x1, 0x1, 0x1, 0x1, 0x0, 0x0, 0x0, 0x0, 0x0, 0x0, 0x0, 0x0, 0x0, 0x0], 14, true, false, 0) := by
  decide

/-- Source: 41_split.md R69, all-ones column, `k = 15`. -/
theorem test_split15_all_ones : after (exec (.split15 0xFFFFFF#24) threeTuple) = some ([0x3, 0x3, 0x3, 0x3, 0x3, 0x3, 0x3, 0x3, 0x3, 0x1, 0x1, 0x1, 0x1, 0x1, 0x1, 0x0, 0x0, 0x0, 0x0, 0x0, 0x0, 0x0, 0x0, 0x0], 15, true, false, 0) := by
  decide

/-- Source: 41_split.md R69, all-ones column, `k = 16`. -/
theorem test_split16_all_ones : after (exec (.split16 0xFFFFFF#24) threeTuple) = some ([0x3, 0x3, 0x3, 0x3, 0x3, 0x3, 0x3, 0x3, 0x1, 0x1, 0x1, 0x1, 0x1, 0x1, 0x1, 0x1, 0x0, 0x0, 0x0, 0x0, 0x0, 0x0, 0x0, 0x0], 16, true, false, 0) := by
  decide

/-- Source: 41_split.md R69, all-ones column, `k = 17`. -/
theorem test_split17_all_ones : after (exec (.split17 0xFFFFFF#24) threeTuple) = some ([0x3, 0x3, 0x3, 0x3, 0x3, 0x3, 0x3, 0x1, 0x1, 0x1, 0x1, 0x1, 0x1, 0x1, 0x1, 0x1, 0x1, 0x0, 0x0, 0x0, 0x0, 0x0, 0x0, 0x0], 17, true, false, 0) := by
  decide

/-- Source: 41_split.md R69, all-ones column, `k = 18`. -/
theorem test_split18_all_ones : after (exec (.split18 0xFFFFFF#24) threeTuple) = some ([0x3, 0x3, 0x3, 0x3, 0x3, 0x3, 0x1, 0x1, 0x1, 0x1, 0x1, 0x1, 0x1, 0x1, 0x1, 0x1, 0x1, 0x1, 0x0, 0x0, 0x0, 0x0, 0x0, 0x0], 18, true, false, 0) := by
  decide

/-- Source: 41_split.md R69, all-ones column, `k = 19`. -/
theorem test_split19_all_ones : after (exec (.split19 0xFFFFFF#24) threeTuple) = some ([0x3, 0x3, 0x3, 0x3, 0x3, 0x1, 0x1, 0x1, 0x1, 0x1, 0x1, 0x1, 0x1, 0x1, 0x1, 0x1, 0x1, 0x1, 0x1, 0x0, 0x0, 0x0, 0x0, 0x0], 19, true, false, 0) := by
  decide

/-- Source: 41_split.md R69, all-ones column, `k = 20`. -/
theorem test_split20_all_ones : after (exec (.split20 0xFFFFFF#24) threeTuple) = some ([0x3, 0x3, 0x3, 0x3, 0x1, 0x1, 0x1, 0x1, 0x1, 0x1, 0x1, 0x1, 0x1, 0x1, 0x1, 0x1, 0x1, 0x1, 0x1, 0x1, 0x0, 0x0, 0x0, 0x0], 20, true, false, 0) := by
  decide

/-- Source: 41_split.md R69, all-ones column, `k = 21`. -/
theorem test_split21_all_ones : after (exec (.split21 0xFFFFFF#24) threeTuple) = some ([0x3, 0x3, 0x3, 0x1, 0x1, 0x1, 0x1, 0x1, 0x1, 0x1, 0x1, 0x1, 0x1, 0x1, 0x1, 0x1, 0x1, 0x1, 0x1, 0x1, 0x1, 0x0, 0x0, 0x0], 21, true, false, 0) := by
  decide

/-- Source: 41_split.md R69, all-ones column, `k = 22`. -/
theorem test_split22_all_ones : after (exec (.split22 0xFFFFFF#24) threeTuple) = some ([0x3, 0x3, 0x1, 0x1, 0x1, 0x1, 0x1, 0x1, 0x1, 0x1, 0x1, 0x1, 0x1, 0x1, 0x1, 0x1, 0x1, 0x1, 0x1, 0x1, 0x1, 0x1, 0x0, 0x0], 22, true, false, 0) := by
  decide

/-- Source: 95_test_vectors.md section 2.2, `k = 23`, `0xABCDEF`. -/
theorem test_split23_vector : after (exec (.split23 0xABCDEF#24) threeTuple) = some ([0x3, 0x1, 0x1, 0x1, 0x0, 0x1, 0x1, 0x1, 0x1, 0x0, 0x1, 0x1, 0x0, 0x0, 0x1, 0x1, 0x1, 0x1, 0x0, 0x1, 0x0, 0x1, 0x0, 0x0], 23, true, false, 0) := by
  decide

/-- Source: 95_test_vectors.md section 2.2, `k = 24`, `0xABCDEF`. -/
theorem test_split24_vector : after (exec (.split24 0xABCDEF#24) threeTuple) = some ([0x1, 0x1, 0x1, 0x1, 0x0, 0x1, 0x1, 0x1, 0x1, 0x0, 0x1, 0x1, 0x0, 0x0, 0x1, 0x1, 0x1, 0x1, 0x0, 0x1, 0x0, 0x1, 0x0, 0x1], 24, true, false, 0) := by
  decide

/-! ## Witnesses: each statement with hypotheses, met by a concrete case -/

theorem witness_DecodeAndEncodeAgree :
    ((0x20000000#32).toNat / 2 ^ 29 % 2 ^ 3 ≠ 0) ∧
    ((0x00FFFFFF#32).toNat / 2 ^ 29 % 2 ^ 3 = 0 ∧ (0x00FFFFFF#32).toNat / 2 ^ 24 % 2 ^ 5 = 0) ∧
    ((0x19000000#32).toNat / 2 ^ 29 % 2 ^ 3 = 0 ∧ 24 < (0x19000000#32).toNat / 2 ^ 24 % 2 ^ 5) ∧
    ((0x01000000#32).toNat / 2 ^ 29 % 2 ^ 3 = 0 ∧ 1 ≤ (0x01000000#32).toNat / 2 ^ 24 % 2 ^ 5) ∧
    ((0x18FFFFFF#32).toNat / 2 ^ 29 % 2 ^ 3 = 0 ∧ (0x18FFFFFF#32).toNat / 2 ^ 24 % 2 ^ 5 ≤ 24) := by decide

theorem witness_EncodeInvertsDecode : decode 0x18FFFFFF#32 = .instr (.split24 0xFFFFFF#24) := by decide

theorem witness_OpcodeTableIsTheDecoder :
    decode 0x18FFFFFF#32 = .instr (.split24 0xFFFFFF#24) ∧ (opcodeRow 24).covers 0x18FFFFFF#32 = true ∧
    (opcodeRow 1).covers 0x18FFFFFF#32 = false := by decide

theorem witness_TransformDomain :
    (1 ≤ 24 ∧ 2 ^ 24 - 1 < 2 ^ 24 ∧ 1 ≤ 1) ∧
    redistribute 0 1 0 = none ∧ redistribute (2 ^ 24) 2 24 = none ∧ redistribute 5 0 24 = none := by decide

/-- For the statements over a value of the transform: TransformClosedForm, ComponentWidths, OrIsSumIsXor, PopulationCountKept,
TransformIsLinear, MergeRoundTrip, TransformBijective. -/
theorem witness_transform :
    redistribute 0xABCDEF 7 24 = some [0xF, 0x7, 0xD, 0x7, 0x2, 0x5, 0x1] ∧
    redistribute 0x123456 7 24 = some [0x0, 0x1, 0x1, 0x6, 0x1, 0x2, 0x7] ∧ 6 < 7 := by decide

theorem witness_PositionBijection : 1 ≤ 5 ∧ (23 < 24 ∧ routeOf 5 23 = 3 ∧ shiftOf 5 23 = 4) := by decide

theorem witness_FanoutBeyondWidth :
    redistribute 5 6 4 = some [1, 0, 1, 0, 0, 0] ∧ 4 ≤ 6 ∧ redistribute 5 4 4 = some [1, 0, 1, 0] ∧
    decode 0x18FFFFFF#32 = .instr (.split24 0xFFFFFF#24) := by decide

theorem witness_SingleBitRouting : 23 < 24 ∧ 1 ≤ 2 := by decide

/-- The tuple hypotheses of MergeRoundTrip and TransformBijective. -/
theorem witness_MergeRoundTrip :
    [0x1F, 0x1F, 0x1F, 0x1F, 0xF].length = 5 ∧
    ∀ c < 5, [0x1F, 0x1F, 0x1F, 0x1F, 0xF].getD c 0 < 2 ^ bitCount 5 24 c := by decide

theorem witness_AccumulationOrderFree : (List.range 24).reverse.Perm (List.range 24) := List.reverse_perm _

theorem witness_RoundByRound : 1 ≤ 5 ∧ 24 % 5 ≠ 0 ∧ 24 % 8 = 0 ∧ 4 < 5 := by decide

theorem witness_OneOrTwoBitForms : 13 ≤ (Instr.split13 0#24).fanout ∧ 13 ≤ (Instr.split24 0#24).fanout := by decide

theorem witness_CoordAndColorForms : 4095 < 4096 ∧ 255 < 256 := by decide

theorem witness_ComponentMasks : 22 < (Instr.split23 0xFFFFFF#24).fanout ∧ (Instr.split23 0xFFFFFF#24).value = 0xFFFFFF#24 := by
  decide

theorem witness_SplitFrame : ∃ t, exec (.split5 0xFFFFFF#24) threeTuple = .next t := ⟨_, exec_eq_split _ _⟩

theorem witness_ResultIsFunctionOfWord :
    rejection 0x05FFFFFF#32 = none ∧
    (∃ t, step (stateOf (holding [1, 1] false 0) [.issue 0x05FFFFFF#32]) = .next t) ∧
    ∃ t, step (stateOf (holding [0xA7, 0x6D, 0xBF] true 2) [.issue 0x05FFFFFF#32, .read]) = .next t :=
  ⟨by decide, ⟨_, step_of_issue rfl⟩, ⟨_, step_of_issue rfl⟩⟩

theorem witness_IssueIdempotent :
    (stateOf (holding [1, 1] false 0) [.issue 0x20000000#32, .issue 0x20000000#32]).pending =
      .issue 0x20000000#32 :: .issue 0x20000000#32 :: [] := by decide

theorem witness_StepRunsDecodedInstruction :
    (threeTuple.withFetchWord 32 0x07ABCDEF).pending = .issue 0x07ABCDEF#32 :: [] ∧
    decode 0x07ABCDEF#32 = .instr (.split7 0xABCDEF#24) := by decide

theorem witness_CommandErrorAction :
    (threeTuple.withFetchWord 32 0x1FFFFFFF).pending = .issue 0x1FFFFFFF#32 :: [] ∧
    decode 0x1FFFFFFF#32 = .illegal .fanoutRange := by decide

theorem witness_CauseCodesRecorded :
    (threeTuple.withFetchWord 32 0x20000000).pending = .issue 0x20000000#32 :: [] ∧
    threeTuple.engine.err = false ∧ threeTuple.engine.errCause = 0#2 := by decide

theorem witness_FirstCauseWins :
    (stateOf (holding [1, 1] true 2) [.issue 0x19000000#32]).engine.err = true ∧ rejection 0x19000000#32 ≠ none ∧
    (∀ rest, (stateOf (holding [1, 1] true 2) [.issue 0x19000000#32]).pending ≠ .reset :: rest) ∧
    ∃ t, step (stateOf (holding [1, 1] true 2) [.issue 0x19000000#32]) = .next t :=
  ⟨by decide, by decide, fun _ h => by simp [stateOf] at h, ⟨_, step_of_issue rfl⟩⟩

theorem witness_ErrorGatesNothing :
    (threeTuple.withFetchWord 32 0x07ABCDEF).pending = .issue 0x07ABCDEF#32 :: [] ∧ rejection 0x07ABCDEF#32 = none := by decide

theorem witness_ResetClearsAndOnlyReset :
    (stateOf (holding [1, 1] true 1) [.reset]).pending = .reset :: [] ∧
    (∃ t, step (stateOf (holding [1, 1] true 1) [.read]) = .next t) ∧
    (∀ rest, (stateOf (holding [1, 1] true 1) [.read]).pending ≠ .reset :: rest) ∧
    (stateOf (holding [1, 1] true 1) [.read]).engine.valid = true ∧
    (stateOf (holding [1, 1] true 1) [.read]).engine.err = true :=
  ⟨by decide, ⟨_, step_of_read rfl⟩, fun _ h => by simp [stateOf] at h, by decide, by decide⟩

theorem witness_ReadReturnsState :
    (stateOf (holding [1, 1] false 0) [.read]).pending = .read :: [] ∧
    (stateOf (holding [1, 1] false 0) [.read]).engine.valid = true := by decide

theorem witness_QuiescentWithoutAction : State.reset.pending = [] := by decide

theorem witness_ResultsAreFunctionOfActions :
    HostAction.reset ∉ [HostAction.issue 0x00000000#32, .read, .issue 0x05FFFFFF#32] ∧
    HostAction.issue 0x05FFFFFF#32 ∈ [HostAction.issue 0x00000000#32, .read, .issue 0x05FFFFFF#32] ∧
    rejection 0x05FFFFFF#32 = none := by decide

theorem witness_ErrorFreeRuns :
    threeTuple.engine.err = false ∧ HostAction.reset ∉ (threeTuple.withFetchWord 32 0x07ABCDEF).pending := by decide

theorem witness_UnreadResultIsLost :
    (stateOf (holding [1] false 0)
      [.issue (encode (.split2 0xABCDEF#24)), .issue (encode (.split3 0xABCDEF#24)), .read, .read]).pending =
    .issue (encode (.split2 0xABCDEF#24)) :: .issue (encode (.split3 0xABCDEF#24)) :: .read :: .read :: [] := by decide

theorem witness_ConsistencyKept :
    Consistent (stateOf ((Engine.afterReset 0 0).split 2 3#24) [.issue 0x20000000#32]) ∧
    ∃ t, step (stateOf ((Engine.afterReset 0 0).split 2 3#24) [.issue 0x20000000#32]) = .next t := by
  refine ⟨⟨⟨?_, fun _ => ⟨by decide, by decide, 3#24, rfl⟩⟩, ?_⟩, ⟨_, step_of_issue rfl⟩⟩
  · simp [stateOf]
  · simp [stateOf]

theorem witness_PortsShowRegisters :
    (⟨holding [1] false 0, some ⟨0x20000000#32, 3⟩, 0, 0⟩ : SignalState).outputs.resValid = true ∧
    (⟨holding [1] false 0, some ⟨0x01000000#32, 3⟩, 0, 0⟩ : SignalState).outputs.resValid = false := by decide

theorem witness_StatusAtTheWires :
    (∀ f, (⟨holding [1] true 2, some ⟨0x20000000#32, 3⟩, 0, 0⟩ : SignalState).inFlight = some f → rejection f.word ≠ none) ∧
    (⟨holding [1] true 2, some ⟨0x01000000#32, 3⟩, 0, 0⟩ : SignalState).inFlight = some ⟨0x01000000#32, 3⟩ ∧
    rejection 0x01000000#32 = none :=
  ⟨fun _ h => by cases h; decide, rfl, by decide⟩

theorem witness_AcceptedCommandCompletes :
    (⟨holding [1] false 0, none, 0, 0⟩ : SignalState).outputs.cmdReady = true ∧
    rejection 0x02000003#32 = none ∧
    (∀ q ∈ [(⟨false, true, 0x05FFFFFF#32⟩ : PortsIn)], q.rst = false) ∧
    [(⟨false, true, 0x05FFFFFF#32⟩ : PortsIn)].length < 2 ∧ [(⟨false, true, 0x05FFFFFF#32⟩ : PortsIn)].length = 1 := by decide

/-- The hypothesis holds, and later inputs reach `VALID = 1` in an engine that had a command in flight. -/
theorem witness_ResetAbandonsCommand :
    (⟨true, false, 0#32⟩ : PortsIn).rst = true ∧
    (SignalState.edges (fun _ => 0) ⟨holding [1] false 0, some ⟨0x02000003#32, 2⟩, 0, 0⟩
      [⟨true, false, 0#32⟩, ⟨false, true, 0x03000004#32⟩]).engine.valid = true := by decide

theorem witness_BusyIgnoresAndOutputsStand :
    (⟨holding [1] false 0, some ⟨0x02000003#32, 2⟩, 0, 0⟩ : SignalState).outputs.cmdReady = false ∧
    SignalState.completedAt (fun _ => 2) ⟨holding [1] false 0, some ⟨0x02000003#32, 2⟩, 0, 0⟩ ⟨false, true, 0x05FFFFFF#32⟩ = [] := by decide

theorem witness_EnginesAreIndependent : [State.reset, threeTuple][1]? = some threeTuple := rfl

theorem witness_AssemblerEncodes :
    (1 ≤ 1 ∧ 1 ≤ 24 ∧ 0xFFFFFF ≤ 0xFFFFFF) ∧ (1 ≤ 24 ∧ 24 ≤ 24 ∧ 0 ≤ 0xFFFFFF) ∧
    assemble (.split 0 5) = none ∧ assemble (.form 25 5) = none ∧ assemble (.split 3 0x1000000) = none := by decide

theorem witness_PixelReadsBothResults :
    assemble (.pixel 3) = some [.issue 0x02000003#32, .read, .issue 0x03000003#32, .read] ∧
    (3#24).toNat = 3 := by decide

end Sys2Proof.Tests
end

section
/-! SUPPORT. The statements of the family 10_state.md: the range of a fan-out and the effect of a legal word, the consistency of the
registers under each register operation (O41, O42), the tuple in the result latch (O20), and one clock edge at the wires as at most
one host action (O49). -/

namespace Sys2Proof

theorem Instr.fanout_bounds (i : Instr) : 1 ≤ i.fanout ∧ i.fanout ≤ 24 := by
  cases i <;> simp [Instr.fanout]

/-- `RES_K` holds every fan-out without loss (R15). -/
@[simp] theorem Instr.toNat_ofNat_fanout (i : Instr) : (BitVec.ofNat 5 i.fanout).toNat = i.fanout := by
  have hk := i.fanout_bounds
  rw [BitVec.toNat_ofNat, Nat.mod_eq_of_lt (by omega)]

/-- A word that is not rejected is the word of an instruction (R39, R74). -/
theorem exists_decode_of_rejection_eq_none {w : CommandWord} (h : rejection w = none) : ∃ i, decode w = .instr i := by
  unfold rejection at h
  split at h
  case h_1 i hi => exact ⟨i, hi⟩
  case h_2 => contradiction

end Sys2Proof

namespace Sys2Proof.Machine

theorem Engine.issue_of_instr {w : CommandWord} {i : Instr} (e : Engine) (h : decode w = .instr i) :
    e.issue w = e.split i.fanout i.value := by
  simp only [Engine.issue, h]

theorem Engine.issue_of_illegal {w : CommandWord} {c : Cause} (e : Engine) (h : decode w = .illegal c) :
    e.issue w = e.commandError c := by
  simp only [Engine.issue, h]

/-! ## The registers stay consistent (R15 to R17) -/

/-- The code 0 is kept for "no error" (R74). -/
theorem causeCode_ne_zero (c : Cause) : causeCode c ≠ 0#2 := by
  cases c <;> decide

/-- A command error always leaves a cause in a consistent error record: the old one or its own (R76, R77). -/
theorem keptCause_ne_zero {e : Engine} (h : EngineConsistent e) (c : Cause) : keptCause e c ≠ 0#2 := by
  obtain ⟨hrecord, -⟩ := h
  unfold keptCause
  cases herr : e.err with
  | false => exact causeCode_ne_zero c
  | true => exact fun hzero => Bool.noConfusion (herr.symm.trans (hrecord.mpr hzero))

theorem engineConsistent_split {e : Engine} (h : EngineConsistent e) (i : Instr) :
    EngineConsistent (e.split i.fanout i.value) := by
  obtain ⟨hrecord, -⟩ := h
  refine ⟨by rwa [Engine.split_err, Engine.split_errCause], fun _ => ?_⟩
  rw [Engine.split_resK, Instr.toNat_ofNat_fanout]
  exact ⟨i.fanout_bounds.1, i.fanout_bounds.2, i.value, Engine.split_res ..⟩

theorem engineConsistent_commandError {e : Engine} (h : EngineConsistent e) (c : Cause) :
    EngineConsistent (e.commandError c) := by
  refine ⟨?_, h.2⟩
  simp [keptCause_ne_zero h c]

/-- An issued word keeps the registers consistent, legal or not. -/
theorem engineConsistent_issue {e : Engine} (h : EngineConsistent e) (w : CommandWord) : EngineConsistent (e.issue w) := by
  cases hw : decode w with
  | instr i =>
    rw [Engine.issue_of_instr e hw]
    exact engineConsistent_split h i
  | illegal c =>
    rw [Engine.issue_of_illegal e hw]
    exact engineConsistent_commandError h c

/-- While `VALID` is 0 nothing is asked of the result latch, so only the error record counts. -/
theorem engineConsistent_of_invalid {e : Engine} (hvalid : e.valid = false) (hrecord : e.err = false ↔ e.errCause = 0#2) :
    EngineConsistent e :=
  ⟨hrecord, fun h => Bool.noConfusion (hvalid.symm.trans h)⟩

theorem engineConsistent_afterReset (stream draw : Nat) : EngineConsistent (Engine.afterReset stream draw) :=
  engineConsistent_of_invalid rfl (by simp)

/-- What a Read returns is consistent, whatever it draws for an unspecified result (R92, R96). -/
theorem engineConsistent_readView {e : Engine} (h : EngineConsistent e) (stream draw : Nat) :
    EngineConsistent (e.readView stream draw) := by
  cases hvalid : e.valid with
  | true => rwa [readView_of_valid e stream draw hvalid]
  | false =>
    obtain ⟨hv, herr, hcause⟩ := readView_flags e stream draw
    exact engineConsistent_of_invalid (hv.trans hvalid) (by rw [herr, hcause]; exact h.1)

/-! ## The tuple in the result latch (R14, R15, R64) -/

@[simp] theorem length_accumulate (v k : Nat) (comps : List Nat) (i : Nat) :
    (accumulate v k comps i).length = comps.length :=
  List.length_modify ..

/-- The loop has as many components as the fan-out (R46). -/
@[simp] theorem length_redLoop (v k width : Nat) : (redLoop v k width).length = k :=
  List.foldlRecOn (motive := fun comps : List Nat => comps.length = k) _ _ List.length_replicate
    fun _ h i _ => (length_accumulate v k _ i).trans h

/-- A lane's term fits in the width: it is one bit, shifted to a place no higher than its own (R51). -/
theorem laneTerm_lt_two_pow (v k : Nat) {i width : Nat} (h : i < width) : laneTerm v k i < 2 ^ width := by
  have hbit : bitOf v i < 2 := Nat.mod_lt _ (by decide)
  have hshift : shiftOf k i ≤ i := Nat.div_le_self i k
  calc laneTerm v k i = bitOf v i * 2 ^ shiftOf k i := Nat.shiftLeft_eq ..
    _ < 2 * 2 ^ shiftOf k i := Nat.mul_lt_mul_of_pos_right hbit (Nat.two_pow_pos _)
    _ = 2 ^ (shiftOf k i + 1) := (Nat.pow_succ' ..).symm
    _ ≤ 2 ^ width := Nat.pow_le_pow_right (by decide) (by omega)

theorem accumulate_lt_two_pow {v k width i : Nat} {comps : List Nat} (hi : i < width)
    (h : ∀ x ∈ comps, x < 2 ^ width) : ∀ x ∈ accumulate v k comps i, x < 2 ^ width := by
  intro x hx
  obtain ⟨c, hc, rfl⟩ := List.mem_iff_getElem.mp hx
  rw [length_accumulate] at hc
  have hold : comps[c] < 2 ^ width := h _ (List.getElem_mem hc)
  simp only [accumulate, List.getElem_modify]
  split
  · exact Nat.or_lt_two_pow hold (laneTerm_lt_two_pow v k hi)
  · exact hold

/-- Every component fits in the width of the value, so in a register (R14, R56). -/
theorem redLoop_lt_two_pow (v k width : Nat) : ∀ x ∈ redLoop v k width, x < 2 ^ width :=
  List.foldlRecOn (motive := fun comps : List Nat => ∀ x ∈ comps, x < 2 ^ width) _ _
    (fun _ hx => List.eq_of_mem_replicate hx ▸ Nat.two_pow_pos width)
    fun _ h _ hi => accumulate_lt_two_pow (List.mem_range.mp hi) h

/-- Registers beyond a latched tuple are 0 (R64). -/
theorem latch_getElem_of_length_le {comps : List Nat} {c : Nat} (hc : c < 24) (h : comps.length ≤ c) :
    (latch comps)[c] = 0#24 := by
  rw [latch_getElem, List.getD_eq_default _ _ h]

/-- A tuple whose components fit their registers is read back from the latch without loss. -/
theorem map_toNat_take_latch {comps : List Nat} (hlen : comps.length ≤ 24) (hfit : ∀ x ∈ comps, x < 2 ^ 24) :
    ((latch comps).toList.take comps.length).map BitVec.toNat = comps := by
  apply List.ext_getElem
  · simpa using hlen
  · intro c _ hc
    have hreg : (latch comps)[c] = BitVec.ofNat 24 comps[c] := by
      rw [latch_getElem _ _ (by omega), List.getD_eq_getElem _ _ hc]
    simpa [hreg] using hfit _ (List.getElem_mem hc)

/-- The tuple the host takes after a SPLIT is the loop's result (R15, R97). -/
theorem map_toNat_tuple_split (e : Engine) (i : Instr) :
    (e.split i.fanout i.value).tuple.map BitVec.toNat = redLoop i.value.toNat i.fanout 24 := by
  have hlatch := map_toNat_take_latch (comps := redLoop i.value.toNat i.fanout 24)
    (by rw [length_redLoop]; exact i.fanout_bounds.2) (redLoop_lt_two_pow _ _ _)
  rw [length_redLoop] at hlatch
  rwa [Engine.tuple, Engine.split_res, Engine.split_resK, Instr.toNat_ofNat_fanout]

/-! ## One clock edge is at most one host action (R92, R94) -/

/-- The transaction-level state with the registers of a wired engine and given host actions to come. -/
def SignalState.toState (s : SignalState) (pending : List HostAction) : State where
  engine := s.engine
  pending := pending
  reads := []
  stream := s.stream
  draws := s.draws

/-- A word in flight takes its whole effect when no edge is left, and none before (R94 (b)). -/
theorem toState_settle (s : SignalState) (w : CommandWord) (left : Nat) (pending : List HostAction) :
    (SignalState.settle { s with inFlight := some ⟨w, left⟩ }).toState pending =
      if left = 0 then { s.toState pending with engine := s.engine.issue w } else s.toState pending := by
  cases left <;> rfl

/-- Everything one clock edge can do to the registers, with the host action it stands for: nothing, a `Reset`, or the `Issue` of
the word that completes (R92, R94). -/
theorem edge_cases (latency : CommandWord → Nat) (s : SignalState) (p : PortsIn) :
    (s.completedAt latency p = [] ∧ ∀ pending, (s.edge latency p).toState pending = s.toState pending) ∨
    (s.completedAt latency p = [.reset] ∧ ∀ pending, (s.edge latency p).toState pending = (s.toState pending).doReset) ∨
    (∃ w, s.completedAt latency p = [.issue w] ∧
      ∀ pending, (s.edge latency p).toState pending = { s.toState pending with engine := s.engine.issue w }) := by
  unfold SignalState.completedAt SignalState.edge
  by_cases hrst : p.rst = true
  · rw [if_pos hrst, if_pos hrst]
    exact .inr (.inl ⟨rfl, fun _ => rfl⟩)
  rw [if_neg hrst, if_neg hrst]
  cases hflight : s.inFlight with
  | some f =>
    by_cases hleft : f.left ≤ 1
    · refine .inr (.inr ⟨f.word, by simp [hleft], fun pending => ?_⟩)
      simp [toState_settle, Nat.sub_eq_zero_of_le hleft]
    · refine .inl ⟨by simp [hleft], fun pending => ?_⟩
      simp [toState_settle, Nat.sub_eq_zero_iff_le, hleft]
  | none =>
    by_cases hcmd : p.cmdValid = true
    · by_cases hlat : latency p.cmdWord = 0
      · exact .inr (.inr ⟨p.cmdWord, by simp [hcmd, hlat], fun pending => by simp [toState_settle, hcmd, hlat]⟩)
      · exact .inl ⟨by simp [hlat], fun pending => by simp [toState_settle, hcmd, hlat]⟩
    · exact .inl ⟨by simp [hcmd], fun pending => by simp [hcmd]⟩

/-- Every step completes (R79, R94 (d)). -/
theorem exists_step_eq_next (s : State) : ∃ t, step s = .next t := by
  match hp : s.pending with
  | [] => exact ⟨s, by simp only [step, State.nextAction, hp]⟩
  | .reset :: _ => exact ⟨_, step_of_reset hp⟩
  | .read :: _ => exact ⟨_, step_of_read hp⟩
  | .issue _ :: _ => exact ⟨_, step_of_issue hp⟩

/-- Runs compose: `m` steps that complete, then `n` more. -/
theorem run_add {m : Nat} (n : Nat) {s t : State} (h : run m s = .next t) : run (m + n) s = run n t := by
  induction m generalizing s with
  | zero =>
    rw [run_zero, Host.Outcome.next.injEq] at h
    rw [Nat.zero_add, h]
  | succ m ih =>
    obtain ⟨u, hu⟩ := exists_step_eq_next s
    rw [run_succ hu] at h
    rw [Nat.succ_add, run_succ hu, ih h]

/-- One clock edge at the wires is the run of the host actions that take their effect there. -/
theorem run_completedAt (latency : CommandWord → Nat) (s : SignalState) (p : PortsIn) (pending : List HostAction) :
    run (s.completedAt latency p).length (s.toState (s.completedAt latency p ++ pending)) =
      .next ((s.edge latency p).toState pending) := by
  rcases edge_cases latency s p with ⟨hacts, hedge⟩ | ⟨hacts, hedge⟩ | ⟨w, hacts, hedge⟩ <;> rw [hacts, hedge]
  · exact run_zero _
  · exact run_succ (step_of_reset rfl)
  · exact run_succ (step_of_issue rfl)

/-- The registers at the wires after a sequence of edges are those after the host actions that took their effect (R94). -/
theorem run_completed (latency : CommandWord → Nat) (s : SignalState) (ps : List PortsIn) :
    run (SignalState.completed latency s ps).length (s.toState (SignalState.completed latency s ps)) =
      .next ((s.edges latency ps).toState []) := by
  induction ps generalizing s with
  | nil => exact run_zero _
  | cons p ps ih =>
    simp only [SignalState.completed, List.length_append]
    rw [run_add _ (run_completedAt ..)]
    exact ih (s.edge latency p)

end Sys2Proof.Machine

open Sys2Proof Sys2Proof.Machine

/-- Settles O41: each action a step can take keeps the registers consistent, and a Read logs only consistent registers. -/
theorem consistencyKept : Obligations.ConsistencyKept := by
  unfold Obligations.ConsistencyKept
  rintro s t ⟨hengine, hreads⟩ hstep
  obtain ⟨-, rfl⟩ | ⟨rest, -, rfl⟩ | ⟨rest, -, rfl⟩ | ⟨w, rest, -, rfl⟩ := step_cases hstep
  · exact ⟨hengine, hreads⟩
  · exact ⟨engineConsistent_afterReset .., by simpa using hreads⟩
  · exact ⟨by simpa using hengine, by simpa using ⟨engineConsistent_readView hengine .., hreads⟩⟩
  · exact ⟨engineConsistent_issue hengine w, hreads⟩

/-- Settles O20: the loop has one component per register of the tuple, and each fits its register. -/
theorem splitTupleIsRedistribute : Obligations.SplitTupleIsRedistribute := by
  unfold Obligations.SplitTupleIsRedistribute
  intro i s
  refine ⟨_, exec_eq_split i s, ?_, fun c hc hbeyond => ?_⟩
  · rw [State.split_engine, map_toNat_tuple_split, redistribute, if_pos ⟨by decide, i.value.isLt, i.fanout_bounds.1⟩]
  · exact latch_getElem_of_length_le hc (by rwa [length_redLoop])

/-- Settles O49, by induction on the inputs: every edge is the run of the actions completed at it. -/
theorem wiresRefineHostActions : Obligations.WiresRefineHostActions := by
  unfold Obligations.WiresRefineHostActions
  intro latency s ps
  exact ⟨_, run_completed latency s ps, rfl, rfl, rfl⟩

/-- Settles O27: a legal word is a SPLIT, which writes the latch from its fan-out and value. -/
theorem resultIsFunctionOfWord : Obligations.ResultIsFunctionOfWord := by
  unfold Obligations.ResultIsFunctionOfWord
  intro w s s' t t' rest rest' hlegal hs hs' hstep hstep'
  obtain ⟨i, hi⟩ := exists_decode_of_rejection_eq_none hlegal
  rw [step_of_issue hs, Host.Outcome.next.injEq] at hstep
  rw [step_of_issue hs', Host.Outcome.next.injEq] at hstep'
  subst hstep hstep'
  simp [Engine.issue_of_instr _ hi]

/-- Settles O42: after power-up the flags are 0 and nothing has been read. -/
theorem consistentAtReset : Obligations.ConsistentAtReset := by
  unfold Obligations.ConsistentAtReset
  exact ⟨engineConsistent_afterReset 0 0, by simp [State.reset, State.powerUp]⟩

/-- Settles O43: the registers' `STATUS` is a packed `STATUS`. -/
theorem statusView : Obligations.StatusView := by
  unfold Obligations.StatusView
  exact fun e => packStatus_fields e.valid e.err e.errCause e.resK
end

section
/-! SUPPORT. The statements of the family 20_memory.md: an issued word overwrites what the same word wrote before it, so issuing it
again changes no register (O28). -/

namespace Sys2Proof.Machine

/-- The later of two SPLITs wins: each writes the whole result, and neither touches the error record (R64). -/
@[simp] theorem Engine.split_split (e : Engine) (k k' : Nat) (v v' : Value) :
    (e.split k v).split k' v' = e.split k' v' := by
  simp only [Engine.split]

/-- The earlier of two command errors wins: `ERR` is then 1, and the recorded cause is kept (R76, R77). -/
@[simp] theorem Engine.commandError_commandError (e : Engine) (c c' : Cause) :
    (e.commandError c).commandError c' = e.commandError c := by
  simp only [Engine.commandError, keptCause, if_true]

/-- A word issued twice in a row has its effect once (R30 (d)). -/
@[simp] theorem Engine.issue_issue (e : Engine) (w : CommandWord) : (e.issue w).issue w = e.issue w := by
  cases hw : decode w with
  | instr i => simp only [Engine.issue_of_instr _ hw, Engine.split_split]
  | illegal c => simp only [Engine.issue_of_illegal _ hw, Engine.commandError_commandError]

end Sys2Proof.Machine

open Sys2Proof Sys2Proof.Machine

/-- Settles O28: the effect of a whole word on the registers is idempotent. -/
theorem issueIdempotent : Obligations.IssueIdempotent := by
  unfold Obligations.IssueIdempotent
  intro w s rest hpending
  exact ⟨_, _, step_of_issue hpending, step_of_issue rfl, Engine.issue_issue s.engine w, rfl⟩
end

section
/-! SUPPORT. The statements of the family 30_encoding.md: the fields and the encoding as numbers, the classes of words as ranges of
numbers (O1 to O5), the assembler's words (O51, O52) and the Read of a SPLIT's result (O53). -/

namespace Sys2Proof

/-! ## The fields and the encoding as numbers (R8, R34, R38) -/

theorem toNat_opField (w : CommandWord) : (opField w).toNat = w.toNat / 2 ^ 29 % 2 ^ 3 := by
  rw [opField, BitVec.extractLsb'_toNat, Nat.shiftRight_eq_div_pow]

theorem toNat_kField (w : CommandWord) : (kField w).toNat = w.toNat / 2 ^ 24 % 2 ^ 5 := by
  rw [kField, BitVec.extractLsb'_toNat, Nat.shiftRight_eq_div_pow]

theorem toNat_valueField (w : CommandWord) : (valueField w).toNat = w.toNat % 2 ^ 24 := by
  rw [valueField, BitVec.extractLsb'_toNat, Nat.shiftRight_zero]

theorem opField_eq_zero_iff (w : CommandWord) : opField w = 0#3 ↔ w.toNat < 2 ^ 29 := by
  rw [BitVec.toNat_eq, toNat_opField, BitVec.toNat_ofNat]
  omega

theorem toNat_encode (i : Instr) : (encode i).toNat = i.fanout * 2 ^ 24 + i.value.toNat := by
  rw [encode, BitVec.toNat_append, BitVec.toNat_append, Instr.toNat_ofNat_fanout, Nat.shiftLeft_eq, Nat.mul_comm i.fanout,
    Nat.two_pow_add_eq_or_of_lt i.value.isLt, Nat.mul_comm]
  simp

@[simp] theorem opField_encode (i : Instr) : opField (encode i) = 0#3 := by
  have hk := i.fanout_bounds
  have hv := i.value.isLt
  rw [opField_eq_zero_iff, toNat_encode]
  omega

@[simp] theorem kField_encode (i : Instr) : kField (encode i) = BitVec.ofNat 5 i.fanout := by
  have hk := i.fanout_bounds
  have hv := i.value.isLt
  rw [BitVec.toNat_eq, toNat_kField, toNat_encode, Instr.toNat_ofNat_fanout]
  omega

@[simp] theorem valueField_encode (i : Instr) : valueField (encode i) = i.value := by
  have hv := i.value.isLt
  rw [BitVec.toNat_eq, toNat_valueField, toNat_encode]
  omega

/-! ## The classes of words (R39, R40) -/

/-- Everything the second half of the decoder can answer. -/
theorem decodeFanout_cases (k : FanoutField) (v : Value) :
    (k.toNat = 0 ∧ decodeFanout k v = .illegal .fanoutZero) ∨
    (24 < k.toNat ∧ decodeFanout k v = .illegal .fanoutRange) ∨
    ∃ i, decodeFanout k v = .instr i ∧ i.fanout = k.toNat ∧ i.value = v := by
  unfold decodeFanout
  split
  case h_1 hzero => exact .inl ⟨hzero, rfl⟩
  case h_26 =>
    refine .inr (.inl ⟨?_, rfl⟩)
    simp only [imp_false] at *
    omega
  all_goals
    next hk => exact .inr (.inr ⟨_, rfl, hk.symm, rfl⟩)

/-- The words rejected with a cause, as numbers (R39). -/
def Cause.words : Cause → Finset Nat
  | .illegalOp => .Ico (2 ^ 29) (2 ^ 32)
  | .fanoutZero => .Ico 0 (2 ^ 24)
  | .fanoutRange => .Ico (25 * 2 ^ 24) (2 ^ 29)

/-- The legal words, as numbers (R39). -/
def legalWords : Finset Nat := .Ico (2 ^ 24) (25 * 2 ^ 24)

/-- No word is rejected with two causes. -/
theorem Cause.eq_of_mem_words {c c' : Cause} {n : Nat} (h : n ∈ c.words) (h' : n ∈ c'.words) : c = c' := by
  cases c <;> cases c' <;> simp only [Cause.words, Finset.mem_Ico, reduceCtorEq] at h h' ⊢ <;> omega

theorem Cause.notMem_words_of_mem_legalWords {n : Nat} (h : n ∈ legalWords) (c : Cause) : n ∉ c.words := by
  rw [legalWords, Finset.mem_Ico] at h
  cases c <;> rw [Cause.words, Finset.mem_Ico] <;> omega

theorem encode_mem_legalWords (i : Instr) : (encode i).toNat ∈ legalWords := by
  have hk := i.fanout_bounds
  have hv := i.value.isLt
  rw [toNat_encode, legalWords, Finset.mem_Ico]
  omega

/-- Everything the decoder can answer, each with the words that get it. -/
theorem decode_cases (w : CommandWord) :
    (∃ c, decode w = .illegal c ∧ w.toNat ∈ c.words) ∨ ∃ i, decode w = .instr i ∧ w = encode i := by
  have hk := toNat_kField w
  have hw := w.isLt
  by_cases hop : w.toNat < 2 ^ 29
  · rw [decode, if_pos ((opField_eq_zero_iff w).mpr hop)]
    obtain ⟨hzero, hd⟩ | ⟨hrange, hd⟩ | ⟨i, hd, hfanout, hvalue⟩ := decodeFanout_cases (kField w) (valueField w)
    · exact .inl ⟨_, hd, by rw [Cause.words, Finset.mem_Ico]; omega⟩
    · exact .inl ⟨_, hd, by rw [Cause.words, Finset.mem_Ico]; omega⟩
    · refine .inr ⟨i, hd, BitVec.eq_of_toNat_eq ?_⟩
      rw [toNat_encode, hfanout, hvalue, toNat_valueField]
      omega
  · refine .inl ⟨.illegalOp, if_neg (by rwa [opField_eq_zero_iff]), ?_⟩
    rw [Cause.words, Finset.mem_Ico]
    omega

/-- Decoding the encoding of an instruction gives it back (R40). -/
@[simp] theorem decode_encode (i : Instr) : decode (encode i) = .instr i := by
  rw [decode, if_pos (opField_encode i), kField_encode, valueField_encode]
  cases i <;> rfl

/-- The words of an instruction: its encoding, and no other (R40, R41). -/
theorem decode_eq_instr_iff (w : CommandWord) (i : Instr) : decode w = .instr i ↔ w = encode i := by
  refine ⟨fun h => ?_, fun h => by rw [h, decode_encode]⟩
  obtain ⟨c, hd, -⟩ | ⟨j, hd, hw⟩ := decode_cases w
  · cases hd.symm.trans h
  · cases hd.symm.trans h
    exact hw

theorem decode_eq_illegal_iff (w : CommandWord) (c : Cause) : decode w = .illegal c ↔ w.toNat ∈ c.words := by
  obtain ⟨c', hd, hc'⟩ | ⟨i, hd, rfl⟩ := decode_cases w
  · rw [hd, Decoded.illegal.injEq]
    exact ⟨fun h => h ▸ hc', Cause.eq_of_mem_words hc'⟩
  · simp [Cause.notMem_words_of_mem_legalWords (encode_mem_legalWords i)]

theorem exists_decode_eq_instr_iff (w : CommandWord) : (∃ i, decode w = .instr i) ↔ w.toNat ∈ legalWords := by
  constructor
  · rintro ⟨i, hi⟩
    rw [(decode_eq_instr_iff w i).mp hi]
    exact encode_mem_legalWords i
  · intro h
    obtain ⟨c, -, hc⟩ | ⟨i, hi, -⟩ := decode_cases w
    · exact absurd hc (Cause.notMem_words_of_mem_legalWords h c)
    · exact ⟨i, hi⟩

theorem rejection_eq_some_iff (w : CommandWord) (c : Cause) : rejection w = some c ↔ decode w = .illegal c := by
  unfold rejection
  cases decode w <;> simp

theorem rejection_eq_none_iff (w : CommandWord) : rejection w = none ↔ ∃ i, decode w = .instr i := by
  refine ⟨exists_decode_of_rejection_eq_none, fun ⟨i, hi⟩ => ?_⟩
  rw [rejection, hi]

/-- As many words have a property as there are numbers of such words. -/
theorem card_filter_words {p : CommandWord → Prop} [DecidablePred p] {numbers : Finset Nat}
    (hfit : ∀ n ∈ numbers, n < 2 ^ 32) (h : ∀ w, p w ↔ w.toNat ∈ numbers) :
    (Finset.univ.filter p).card = numbers.card := by
  refine Finset.card_nbij BitVec.toNat (fun w hw => ?_) BitVec.toNat_injective.injOn fun n hn => ?_
  · exact (h w).mp (Finset.mem_filter.mp hw).2
  · have hword : (BitVec.ofNat 32 n).toNat = n := Nat.mod_eq_of_lt (hfit n hn)
    exact ⟨BitVec.ofNat 32 n, Finset.mem_filter.mpr ⟨Finset.mem_univ _, (h _).mpr (by rwa [hword])⟩, hword⟩

theorem card_filter_rejection_eq_some (c : Cause) :
    (Finset.univ.filter fun w : CommandWord => rejection w = some c).card = c.words.card := by
  refine card_filter_words (fun n hn => ?_) fun w => (rejection_eq_some_iff w c).trans (decode_eq_illegal_iff w c)
  cases c <;> rw [Cause.words, Finset.mem_Ico] at hn <;> omega

theorem card_filter_rejection_eq_none :
    (Finset.univ.filter fun w : CommandWord => rejection w = none).card = legalWords.card := by
  refine card_filter_words (fun n hn => ?_) fun w => (rejection_eq_none_iff w).trans (exists_decode_eq_instr_iff w)
  rw [legalWords, Finset.mem_Ico] at hn
  omega

/-! ## The opcode table (R39, D28) -/

/-- A row covers the words whose upper byte is its fan-out. -/
theorem covers_opcodeRow_iff {k : Nat} (hk : k < 2 ^ 8) (w : CommandWord) :
    (opcodeRow k).covers w = true ↔ w.toNat / 2 ^ 24 = k := by
  have hmask : w &&& 0xFF000000#32 = w >>> 24 <<< 24 := by
    rw [BitVec.shiftLeft_ushiftRight]
    rfl
  have hw := w.isLt
  rw [OpcodeRow.covers, beq_iff_eq, opcodeRow, hmask, BitVec.toNat_eq, BitVec.toNat_shiftLeft, BitVec.toNat_ushiftRight,
    Nat.shiftRight_eq_div_pow, Nat.shiftLeft_eq, BitVec.toNat_ofNat]
  omega

theorem exists_mem_opcodeTable_covers_iff (w : CommandWord) :
    (∃ r ∈ opcodeTable, r.covers w = true) ↔ w.toNat ∈ legalWords := by
  simp only [opcodeTable, List.mem_map, List.mem_range, exists_exists_and_eq_and, legalWords, Finset.mem_Ico]
  constructor
  · rintro ⟨j, hj, hcovers⟩
    rw [covers_opcodeRow_iff (by omega)] at hcovers
    omega
  · intro h
    exact ⟨w.toNat / 2 ^ 24 - 1, by omega, (covers_opcodeRow_iff (by omega) w).mpr (by omega)⟩

end Sys2Proof

namespace Sys2Proof.Machine

/-! ## The assembler (R44, R45) -/

theorem splitWord_eq_encode (i : Instr) : splitWord i.fanout i.value.toNat = encode i := by
  rw [splitWord, ← toNat_encode, BitVec.ofNat_toNat, BitVec.setWidth_eq]

/-- Every fan-out in range and every value has its form of SPLIT. -/
theorem exists_instr_of_bounds {k value : Nat} (hk : 1 ≤ k) (hk' : k ≤ 24) (hvalue : value < 2 ^ 24) :
    ∃ i : Instr, i.fanout = k ∧ i.value.toNat = value := by
  have hword : (splitWord k value).toNat = k * 2 ^ 24 + value := by
    rw [splitWord, BitVec.toNat_ofNat, Nat.mod_eq_of_lt (by omega)]
  obtain ⟨i, hi⟩ := (exists_decode_eq_instr_iff (splitWord k value)).mpr
    (by rw [hword, legalWords, Finset.mem_Ico]; omega)
  have hv := i.value.isLt
  rw [(decode_eq_instr_iff _ i).mp hi, toNat_encode] at hword
  exact ⟨i, by omega⟩

theorem fanoutWellFormed_iff (k : Nat) : fanoutWellFormed k = true ↔ 1 ≤ k ∧ k ≤ 24 := by
  rw [fanoutWellFormed, Config.kMax, Bool.and_eq_true, decide_eq_true_iff, decide_eq_true_iff]

theorem valueWellFormed_iff (v : Nat) : valueWellFormed v = true ↔ v < 2 ^ 24 := by
  rw [valueWellFormed, decide_eq_true_iff]
  omega

@[simp] theorem valueWellFormed_toNat (v : Value) : valueWellFormed v.toNat = true :=
  (valueWellFormed_iff _).mpr v.isLt

theorem assemble_split (k value : Nat) :
    assemble (.split k value) =
      if (1 ≤ k ∧ k ≤ 24) ∧ value < 2 ^ 24 then some [.issue (splitWord k value)] else none := by
  simp only [assemble, AsmLine.wellFormed, AsmLine.actions, Bool.and_eq_true, fanoutWellFormed_iff, valueWellFormed_iff]

/-- The two spellings are one line (R44). -/
theorem assemble_form (k value : Nat) : assemble (.form k value) = assemble (.split k value) := rfl

/-! ## Issue and Read (R72, R92) -/

/-- The tuple the host takes after a SPLIT is the transform of its value (R64, R97). -/
theorem redistribute_eq_tuple_split (e : Engine) (i : Instr) :
    redistribute i.value.toNat i.fanout 24 = some ((e.split i.fanout i.value).tuple.map BitVec.toNat) := by
  rw [map_toNat_tuple_split, redistribute, if_pos ⟨by decide, i.value.isLt, i.fanout_bounds.1⟩]

/-- A Read right after the Issue of an instruction's word returns its result (R72). -/
theorem run_issue_read {s : State} {i : Instr} {rest : List HostAction}
    (h : s.pending = .issue (encode i) :: .read :: rest) :
    ∃ t, run 2 s = .next t ∧ t.pending = rest ∧ t.reads = s.engine.split i.fanout i.value :: s.reads := by
  refine ⟨_, (run_succ (step_of_issue h)).trans (run_succ (step_of_read rfl)), State.doRead_pending _, ?_⟩
  rw [State.doRead_reads, Engine.issue_of_instr _ (decode_encode i), readView_of_valid _ _ _ (Engine.split_valid ..)]

end Sys2Proof.Machine

open Sys2Proof Sys2Proof.Machine

/-- Settles O2: the classes of words are ranges of numbers, and the fields of an encoded word are its instruction's. -/
theorem decodeAndEncodeAgree : Obligations.DecodeAndEncodeAgree := by
  unfold Obligations.DecodeAndEncodeAgree
  refine ⟨fun w => ?_, fun i => ⟨i.fanout_bounds.1, i.fanout_bounds.2, toNat_encode i, decode_encode i⟩⟩
  have hw := w.isLt
  simp only [decode_eq_illegal_iff, Cause.words, Finset.mem_Ico]
  refine ⟨by omega, by omega, by omega, fun hop hk hk' => ?_⟩
  obtain ⟨i, hi⟩ := (exists_decode_eq_instr_iff w).mpr (by rw [legalWords, Finset.mem_Ico]; omega)
  have hv := i.value.isLt
  have hnumber := congrArg BitVec.toNat ((decode_eq_instr_iff w i).mp hi)
  rw [toNat_encode] at hnumber
  exact ⟨i, hi, by omega, by omega⟩

/-- Settles O3: the words of an instruction are its encoding alone. -/
theorem encodeInvertsDecode : Obligations.EncodeInvertsDecode := by
  unfold Obligations.EncodeInvertsDecode
  exact fun w i h => ((decode_eq_instr_iff w i).mp h).symm

/-- Settles O4: a row covers the words with its fan-out in the upper byte, which holds the fan-out of a legal word. -/
theorem opcodeTableIsTheDecoder : Obligations.OpcodeTableIsTheDecoder := by
  unfold Obligations.OpcodeTableIsTheDecoder
  refine fun w => ⟨(exists_decode_eq_instr_iff w).trans (exists_mem_opcodeTable_covers_iff w).symm, fun i k hi _ hk' => ?_⟩
  have hv := i.value.isLt
  rw [covers_opcodeRow_iff (by omega), (decode_eq_instr_iff w i).mp hi, toNat_encode]
  omega

/-- Settles O5: each class of words is a range of numbers. -/
theorem wordClassCounts : Obligations.WordClassCounts := by
  unfold Obligations.WordClassCounts
  simp only [card_filter_rejection_eq_none, card_filter_rejection_eq_some, legalWords, Cause.words, Nat.card_Ico]
  decide

/-- Settles O51: a line is refused outside the ranges of R44, and each fan-out and value within them has its form. -/
theorem assemblerEncodes : Obligations.AssemblerEncodes := by
  unfold Obligations.AssemblerEncodes
  intro k value
  rw [assemble_form, assemble_split]
  refine ⟨fun hk hk' hvalue => ?_, fun hbad => ?_⟩
  · obtain ⟨i, rfl, rfl⟩ := exists_instr_of_bounds hk hk' (Nat.lt_succ_of_le hvalue)
    rw [if_pos ⟨i.fanout_bounds, i.value.isLt⟩, splitWord_eq_encode]
    exact ⟨i, rfl, rfl, rfl, rfl⟩
  · rw [if_neg (by omega)]
    exact ⟨rfl, rfl⟩

/-- Settles O52: a pseudo-instruction issues the words of the SPLITs it stands for. -/
theorem pseudoInstructions : Obligations.PseudoInstructions := by
  unfold Obligations.PseudoInstructions
  intro v
  have hcoord : splitWord 2 v.toNat = encode (.split2 v) := splitWord_eq_encode (.split2 v)
  have hcolour : splitWord 3 v.toNat = encode (.split3 v) := splitWord_eq_encode (.split3 v)
  simp [assemble, AsmLine.wellFormed, AsmLine.actions, hcoord, hcolour]

/-- Settles O53: PIXEL is two rounds of Issue and Read, each Read returning the result just issued. -/
theorem pixelReadsBothResults : Obligations.PixelReadsBothResults := by
  unfold Obligations.PixelReadsBothResults
  intro s v acts rest hacts hpending
  obtain ⟨-, -, hpixel⟩ := pseudoInstructions v
  rw [hpixel, Option.some.injEq] at hacts
  subst hacts
  obtain ⟨u, hrun, hu, hcoord⟩ := run_issue_read hpending
  obtain ⟨t, hrun', ht, hcolour⟩ := run_issue_read hu
  refine ⟨t, _, _, (run_add 2 hrun).trans hrun', ht, by rw [hcolour, hcoord], ?_, ?_⟩
  · exact redistribute_eq_tuple_split s.engine (.split2 v)
  · exact redistribute_eq_tuple_split u.engine (.split3 v)

/-- Settles O1, by evaluating the decoder on the eleven words. -/
theorem specWordsDecode : Obligations.SpecWordsDecode := by
  unfold Obligations.SpecWordsDecode
  decide
end

section
/-! SUPPORT. The statements of the family 40_transform.md: the bits of the loop's components (O6, O7, O10, O13, O14), the positions
by component and by round (O8, O9, O12, O18), the order of accumulation (O11, O17) and the inverse (O15, O16). -/

namespace Sys2Proof.Machine

/-! ## The domain (R46, R47, R62) -/

theorem redistribute_eq_some_iff {v k width : Nat} {comps : List Nat} :
    redistribute v k width = some comps ↔ (1 ≤ width ∧ v < 2 ^ width ∧ 1 ≤ k) ∧ redLoop v k width = comps := by
  rw [redistribute, Option.ite_none_right_eq_some, Option.some.injEq]

/-! ## Router and shifter (R50, R51, R55) -/

/-- Output bit `j` of component `c` is where lane `j * k + c` lands, and no other lane. -/
theorem eq_mul_add_iff {k c : Nat} (hc : c < k) (i j : Nat) : i = j * k + c ↔ routeOf k i = c ∧ shiftOf k i = j := by
  rw [routeOf, shiftOf, and_comm, Nat.div_mod_unique (by omega), Nat.mul_comm, Nat.add_comm, eq_comm, and_iff_left hc]

theorem routeOf_lt {k : Nat} (hk : 1 ≤ k) (i : Nat) : routeOf k i < k := Nat.mod_lt i hk

theorem shiftOf_mul_add_routeOf (k i : Nat) : shiftOf k i * k + routeOf k i = i := Nat.div_add_mod' i k

/-- Where a lane lands tells its position (R55). -/
theorem eq_of_routeOf_eq_of_shiftOf_eq {k i i' : Nat} (hroute : routeOf k i = routeOf k i')
    (hshift : shiftOf k i = shiftOf k i') : i = i' := by
  rw [← shiftOf_mul_add_routeOf k i, hroute, hshift, shiftOf_mul_add_routeOf]

/-- Component `c` has exactly the output bits below its count (R56). -/
theorem lt_bitCount_iff {k c : Nat} (hc : c < k) (width j : Nat) : j < bitCount k width c ↔ j * k + c < width := by
  have hwidth := Nat.div_add_mod' width k
  have hrem : width % k < k := Nat.mod_lt _ (by omega)
  have hmul {a b : Nat} (hab : a < b) : a * k + k ≤ b * k := Nat.succ_mul a k ▸ Nat.mul_le_mul_right k hab
  unfold bitCount
  obtain hj | rfl | hj := Nat.lt_trichotomy j (width / k)
  · have hbelow := hmul hj
    split <;> omega
  · split <;> omega
  · have habove := hmul hj
    split <;> omega

theorem bitCount_le_width {k c : Nat} (hc : c < k) (width : Nat) : bitCount k width c ≤ width := by
  have hmul := Nat.le_mul_of_pos_right width (by omega : 0 < k)
  by_contra hlt
  have := (lt_bitCount_iff hc width width).mp (by omega)
  omega

/-! ## The bits of a component (R49, R52, R54) -/

theorem bitOf_eq_toNat_testBit (v i : Nat) : bitOf v i = (v.testBit i).toNat := (Nat.toNat_testBit v i).symm

/-- A shifted bit has no other bit than itself. -/
theorem testBit_bitOf_shiftLeft (v i s j : Nat) : (bitOf v i <<< s).testBit j = (decide (j = s) && v.testBit i) := by
  rw [bitOf_eq_toNat_testBit]
  cases v.testBit i with
  | false => simp
  | true => simp [Nat.one_shiftLeft, Nat.testBit_two_pow, eq_comm]

/-- An OR of terms has the bits of the terms. -/
theorem testBit_foldl_or {α : Type} (term : α → Nat) (lanes : List α) (init j : Nat) :
    (lanes.foldl (fun x i => x ||| term i) init).testBit j = (init.testBit j || lanes.any fun i => (term i).testBit j) := by
  induction lanes generalizing init with
  | nil => simp
  | cons i lanes ih => rw [List.foldl_cons, ih, Nat.testBit_or, List.any_cons, Bool.or_assoc]

theorem getD_accumulate (v k : Nat) {comps : List Nat} {c : Nat} (hc : c < comps.length) (i : Nat) :
    (accumulate v k comps i).getD c 0 =
      if routeOf k i = c then comps.getD c 0 ||| laneTerm v k i else comps.getD c 0 := by
  rw [List.getD_eq_getElem _ _ (by rwa [length_accumulate]), List.getD_eq_getElem _ _ hc]
  exact List.getElem_modify ..

/-- Accumulating lanes, in any order, ORs into each component the terms routed to it (R49, R52). -/
theorem getD_foldl_accumulate (v k : Nat) {comps : List Nat} {c : Nat} (hc : c < comps.length) (lanes : List Nat) :
    (lanes.foldl (accumulate v k) comps).getD c 0 =
      ((lanes.filter fun i => routeOf k i = c).map (laneTerm v k)).foldl (· ||| ·) (comps.getD c 0) := by
  induction lanes generalizing comps with
  | nil => rfl
  | cons i lanes ih =>
    rw [List.foldl_cons, ih (by rwa [length_accumulate]), getD_accumulate v k hc, List.filter_cons]
    by_cases hroute : routeOf k i = c <;> simp [hroute]

/-- The terms of component `c`, in the order of the loop (R49). -/
def termsOf (v k width c : Nat) : List Nat := ((List.range width).filter fun i => routeOf k i = c).map (laneTerm v k)

theorem getD_redLoop {k c : Nat} (hc : c < k) (v width : Nat) :
    (redLoop v k width).getD c 0 = (termsOf v k width c).foldl (· ||| ·) 0 := by
  rw [redLoop, getD_foldl_accumulate v k (by rwa [List.length_replicate]), List.getD_replicate _ hc, termsOf]

/-- Bit `j` of component `c` is input bit `j * k + c` (R54). -/
theorem testBit_getD_redLoop {k c : Nat} (hc : c < k) (v width j : Nat) :
    ((redLoop v k width).getD c 0).testBit j = (decide (j * k + c < width) && v.testBit (j * k + c)) := by
  rw [getD_redLoop hc, testBit_foldl_or, Nat.zero_testBit, Bool.false_or, Bool.eq_iff_iff]
  simp only [termsOf, laneTerm, List.any_eq_true, List.mem_map, List.mem_filter, List.mem_range, decide_eq_true_eq,
    exists_exists_and_eq_and, testBit_bitOf_shiftLeft, Bool.and_eq_true]
  constructor
  · rintro ⟨i, ⟨hi, hroute⟩, hshift, hbit⟩
    obtain rfl := (eq_mul_add_iff hc i j).mpr ⟨hroute, hshift.symm⟩
    exact ⟨hi, hbit⟩
  · rintro ⟨hlt, hbit⟩
    obtain ⟨hroute, hshift⟩ := (eq_mul_add_iff hc _ j).mp rfl
    exact ⟨_, ⟨hlt, hroute⟩, hshift.symm, hbit⟩

/-- Tuples of one length with the same bits are equal. -/
theorem eq_of_testBit_getD {t t' : List Nat} (hlen : t.length = t'.length)
    (h : ∀ c < t.length, ∀ j, (t.getD c 0).testBit j = (t'.getD c 0).testBit j) : t = t' := by
  refine List.ext_getElem hlen fun c hc hc' => ?_
  rw [← List.getD_eq_getElem t 0 hc, ← List.getD_eq_getElem t' 0 hc']
  exact Nat.eq_of_testBit_eq (h c hc)

/-- The bits of R54 determine the loop's result. -/
theorem redLoop_eq_of_testBit {v k width : Nat} {t : List Nat} (hlen : t.length = k)
    (h : ∀ c < k, ∀ j, (t.getD c 0).testBit j = (decide (j * k + c < width) && v.testBit (j * k + c))) :
    redLoop v k width = t := by
  refine eq_of_testBit_getD (by rw [length_redLoop, hlen]) fun c hc j => ?_
  rw [length_redLoop] at hc
  rw [testBit_getD_redLoop hc, h c hc]

/-- A component is below 2 to the number of input bits it receives (R56). -/
theorem getD_redLoop_lt {k c : Nat} (hc : c < k) (v width : Nat) :
    (redLoop v k width).getD c 0 < 2 ^ bitCount k width c := by
  refine Nat.lt_pow_two_of_testBit _ fun j hj => ?_
  rw [testBit_getD_redLoop hc, decide_eq_false (by rw [← lt_bitCount_iff hc]; omega), Bool.false_and]

/-- A number is the sum of its bits at their weights, as far as they are summed. -/
theorem sum_bitOf_mul_two_pow (x n : Nat) : ((List.range n).map fun j => bitOf x j * 2 ^ j).sum = x % 2 ^ n := by
  induction n with
  | zero => simp [Nat.mod_one]
  | succ n ih => rw [List.range_succ, List.map_append, List.sum_append, ih, Nat.mod_pow_succ]; simp [bitOf, Nat.mul_comm]

theorem bitOf_getD_redLoop {k c : Nat} (hc : c < k) (v width j : Nat) :
    bitOf ((redLoop v k width).getD c 0) j = if j * k + c < width then bitOf v (j * k + c) else 0 := by
  rw [bitOf_eq_toNat_testBit, testBit_getD_redLoop hc, bitOf_eq_toNat_testBit]
  split <;> simp [*]

/-- The sum form of R54: a component is the sum of its bits at their weights. -/
theorem getD_redLoop_eq_closedComponent {k c : Nat} (hc : c < k) (v width : Nat) :
    (redLoop v k width).getD c 0 = closedComponent v k width c := by
  have hfit : (redLoop v k width).getD c 0 < 2 ^ width :=
    (getD_redLoop_lt hc v width).trans_le (Nat.pow_le_pow_right (by decide) (bitCount_le_width hc width))
  rw [← Nat.mod_eq_of_lt hfit, ← sum_bitOf_mul_two_pow, closedComponent]
  simp only [bitOf_getD_redLoop hc, ite_mul, zero_mul]

theorem bitOf_zero_of_lt {x : Nat} (hx : x < 2) : bitOf x 0 = x := by
  rw [bitOf, Nat.pow_zero, Nat.div_one, Nat.mod_eq_of_lt hx]

/-- A fan-out of at least the width leaves one bit, or none, to a component (R57). -/
theorem getD_redLoop_of_width_le {k c width : Nat} (hwidth : width ≤ k) (hc : c < k) (v : Nat) :
    (redLoop v k width).getD c 0 = if c < width then bitOf v c else 0 := by
  have hcount : bitCount k width c ≤ 1 := by
    have hone := lt_bitCount_iff hc width 1
    omega
  have hlt : (redLoop v k width).getD c 0 < 2 :=
    (getD_redLoop_lt hc v width).trans_le (Nat.pow_le_pow_right (by decide) hcount)
  rw [← bitOf_zero_of_lt hlt, bitOf_getD_redLoop hc, Nat.zero_mul, Nat.zero_add]

/-! ## The positions by component and by round (R53, R55, R56) -/

/-- Classes that between them hold each position once are the positions in another order. -/
theorem flatMap_perm_range {classOf : Nat → Nat} {members : Nat → List Nat} {classes width : Nat}
    (hnodup : ∀ s, (members s).Nodup) (hmem : ∀ s i, i ∈ members s ↔ i < width ∧ classOf i = s)
    (hclass : ∀ i < width, classOf i < classes) :
    ((List.range classes).flatMap members).Perm (List.range width) := by
  have hdisjoint : (List.range classes).Pairwise (Function.onFun List.Disjoint members) :=
    List.nodup_range.imp fun hne i hi hi' => hne (((hmem _ i).mp hi).2.symm.trans ((hmem _ i).mp hi').2)
  rw [List.perm_ext_iff_of_nodup (List.nodup_flatMap.mpr ⟨fun s _ => hnodup s, hdisjoint⟩) List.nodup_range]
  intro i
  simp only [List.mem_flatMap, List.mem_range, hmem]
  exact ⟨fun ⟨_, _, hi, _⟩ => hi, fun hi => ⟨_, hclass i hi, hi, rfl⟩⟩

theorem mem_roundLanes {k : Nat} (hk : 1 ≤ k) (width s i : Nat) :
    i ∈ roundLanes k width s ↔ i < width ∧ shiftOf k i = s := by
  have hdiv : shiftOf k i = s ↔ s * k ≤ i ∧ i < s * k + k := by
    rw [shiftOf, Nat.div_eq_iff hk]
    omega
  rw [roundLanes, List.mem_filter, List.mem_range'_1, decide_eq_true_iff, hdiv, and_comm]

theorem nodup_roundLanes (k width s : Nat) : (roundLanes k width s).Nodup := (List.nodup_range' ..).filter _

/-- A round takes place while there are lanes left for it (R53). -/
theorem lt_rounds_iff {k : Nat} (hk : 1 ≤ k) (width s : Nat) : s < rounds k width ↔ s * k < width := by
  rw [rounds, ← Nat.succ_le_iff, Nat.le_div_iff_mul_le hk, Nat.succ_mul]
  omega

/-- Component 0 receives a bit in every round. -/
theorem rounds_eq_bitCount {k : Nat} (hk : 1 ≤ k) (width : Nat) : rounds k width = bitCount k width 0 :=
  eq_of_forall_lt_iff fun s => by rw [lt_rounds_iff hk, lt_bitCount_iff hk, Nat.add_zero]

/-- The rounds deliver each position once. -/
theorem flatMap_roundLanes_perm {k : Nat} (hk : 1 ≤ k) (width : Nat) :
    ((List.range (rounds k width)).flatMap (roundLanes k width)).Perm (List.range width) := by
  refine flatMap_perm_range (nodup_roundLanes k width) (mem_roundLanes hk width) fun i hi => ?_
  rw [lt_rounds_iff hk]
  exact (Nat.div_mul_le_self i k).trans_lt hi

/-- What is left for the round after the last full one (R53). -/
theorem length_roundLanes_last {k : Nat} (hk : 1 ≤ k) (width : Nat) :
    (roundLanes k width (width / k)).length = width % k := by
  have hwidth := Nat.div_add_mod' width k
  have hrem : width % k < k := Nat.mod_lt _ hk
  have hperm : (roundLanes k width (width / k)).Perm (List.range' (width / k * k) (width % k)) := by
    rw [List.perm_ext_iff_of_nodup (nodup_roundLanes ..) List.nodup_range']
    intro i
    rw [roundLanes, List.mem_filter, List.mem_range'_1, List.mem_range'_1, decide_eq_true_iff]
    omega
  rw [hperm.length_eq, List.length_range']

/-- The positions routed to component `c` are those of its output bits. -/
theorem filter_routeOf_perm {k c : Nat} (hc : c < k) (width : Nat) :
    ((List.range width).filter fun i => routeOf k i = c).Perm
      ((List.range (bitCount k width c)).map fun j => j * k + c) := by
  have hinj : Function.Injective fun j => j * k + c := fun j j' h =>
    Nat.eq_of_mul_eq_mul_right (by omega) (Nat.add_right_cancel h)
  rw [List.perm_ext_iff_of_nodup (List.nodup_range.filter _) (List.nodup_range.map hinj)]
  intro i
  simp only [List.mem_filter, List.mem_map, List.mem_range, decide_eq_true_iff, lt_bitCount_iff hc]
  constructor
  · rintro ⟨hi, rfl⟩
    exact ⟨shiftOf k i, by rwa [shiftOf_mul_add_routeOf], shiftOf_mul_add_routeOf k i⟩
  · rintro ⟨j, hj, rfl⟩
    exact ⟨hj, ((eq_mul_add_iff hc _ j).mp rfl).1⟩

/-- A sum over the positions is a sum over the output bits of all components. -/
theorem sum_range_eq_sum_components {k : Nat} (hk : 1 ≤ k) (width : Nat) (f : Nat → Nat) :
    ((List.range width).map f).sum =
      ((List.range k).map fun c => ((List.range (bitCount k width c)).map fun j => f (j * k + c)).sum).sum := by
  have hperm : ((List.range k).flatMap fun c => (List.range width).filter fun i => routeOf k i = c).Perm
      (List.range width) :=
    flatMap_perm_range (classOf := routeOf k) (fun _ => List.nodup_range.filter _) (by simp) fun i _ => routeOf_lt hk i
  rw [← (hperm.map f).sum_eq, List.map_flatMap, List.flatMap, List.sum_flatten, List.map_map]
  refine congrArg List.sum (List.map_congr_left fun c hc => ?_)
  rw [Function.comp, ((filter_routeOf_perm (List.mem_range.mp hc) width).map f).sum_eq, List.map_map]
  rfl

/-- The components between them receive every input bit (R56). -/
theorem sum_bitCount {k : Nat} (hk : 1 ≤ k) (width : Nat) : ((List.range k).map (bitCount k width)).sum = width := by
  simpa using (sum_range_eq_sum_components hk width fun _ => 1).symm

/-- The 1 bits of a component are those of the input bits it receives. -/
theorem sum_bitOf_getD_redLoop {k c : Nat} (hc : c < k) (v width : Nat) :
    ((List.range width).map (bitOf ((redLoop v k width).getD c 0))).sum =
      ((List.range (bitCount k width c)).map fun j => bitOf v (j * k + c)).sum := by
  have hbeyond : ∀ j ≥ bitCount k width c, bitOf ((redLoop v k width).getD c 0) j = 0 := fun j hj => by
    rw [bitOf_getD_redLoop hc, if_neg (by rw [← lt_bitCount_iff hc]; omega)]
  calc _ = ((List.range (bitCount k width c)).map (bitOf ((redLoop v k width).getD c 0))).sum :=
        Finset.eventually_constant_sum hbeyond (bitCount_le_width hc width)
    _ = _ := congrArg List.sum (List.map_congr_left fun j hj => by
        rw [bitOf_getD_redLoop hc, if_pos ((lt_bitCount_iff hc width j).mp (List.mem_range.mp hj))])

theorem redLoop_eq_map_getD (v k width : Nat) :
    redLoop v k width = (List.range k).map fun c => (redLoop v k width).getD c 0 :=
  List.ext_getElem (by simp) fun c hc _ => by rw [List.getElem_map, List.getElem_range, List.getD_eq_getElem _ _ hc]

/-! ## The order of accumulation (R48, R52) -/

theorem accumulate_right_comm (v k : Nat) (comps : List Nat) (i i' : Nat) :
    accumulate v k (accumulate v k comps i) i' = accumulate v k (accumulate v k comps i') i := by
  refine List.ext_getElem (by simp) fun c _ _ => ?_
  simp only [accumulate, List.getElem_modify]
  split <;> split <;> simp only [Nat.or_right_comm]

/-- The order of the lanes is free (R52). -/
theorem foldl_accumulate_eq_of_perm {lanes lanes' : List Nat} (h : lanes.Perm lanes') (v k : Nat) (comps : List Nat) :
    lanes.foldl (accumulate v k) comps = lanes'.foldl (accumulate v k) comps :=
  h.foldl_eq' (fun i _ i' _ comps => accumulate_right_comm v k comps i i') comps

/-- Going round by round is accumulating the lanes in the order of the rounds (R53). -/
theorem redRounds_eq_redLoop {k : Nat} (hk : 1 ≤ k) (v width : Nat) : redRounds v k width = redLoop v k width := by
  rw [redRounds, ← List.foldl_flatMap]
  exact foldl_accumulate_eq_of_perm (flatMap_roundLanes_perm hk width) v k _

/-! ## The terms of a component share no bit (R58) -/

theorem or_eq_add_of_and_eq_zero {a b : Nat} (h : a &&& b = 0) : a ||| b = a + b := by
  induction a using Nat.strongRecOn generalizing b with
  | ind a ih =>
    obtain rfl | ha := Nat.eq_zero_or_pos a
    · rw [Nat.zero_or, Nat.zero_add]
    have hhalf : a / 2 ||| b / 2 = a / 2 + b / 2 := ih (a / 2) (by omega) (by rw [← Nat.and_div_two, h])
    have hdiv : (a ||| b) / 2 = a / 2 ||| b / 2 := Nat.or_div_two
    have hor : (a ||| b) % 2 = 1 ↔ a % 2 = 1 ∨ b % 2 = 1 := Nat.or_mod_two_eq_one
    have hand : (a &&& b) % 2 = 1 ↔ a % 2 = 1 ∧ b % 2 = 1 := Nat.and_mod_two_eq_one
    omega

theorem xor_eq_or_of_and_eq_zero {a b : Nat} (h : a &&& b = 0) : a ^^^ b = a ||| b := by
  refine Nat.eq_of_testBit_eq fun j => ?_
  have hbit : (a.testBit j && b.testBit j) = false := by rw [← Nat.testBit_and, h, Nat.zero_testBit]
  rw [Nat.testBit_xor, Nat.testBit_or]
  cases ha : a.testBit j <;> simp_all

/-- Any way to combine two numbers that adds them where they share no bit adds all terms that share none. -/
theorem foldl_eq_add_sum {op : Nat → Nat → Nat} (hop : ∀ a b, a &&& b = 0 → op a b = a + b) {terms : List Nat}
    (hterms : terms.Pairwise fun a b => a &&& b = 0) {init : Nat} (hinit : ∀ t ∈ terms, init &&& t = 0) :
    terms.foldl op init = init + terms.sum := by
  induction terms generalizing init with
  | nil => simp
  | cons t terms ih =>
    obtain ⟨ht, hterms⟩ := List.pairwise_cons.mp hterms
    obtain ⟨hinit, hrest⟩ := List.forall_mem_cons.mp hinit
    have hnext : ∀ u ∈ terms, op init t &&& u = 0 := fun u hu => by
      rw [hop init t hinit, ← or_eq_add_of_and_eq_zero hinit, Nat.and_or_distrib_right, hrest u hu, ht u hu, Nat.or_zero]
    rw [List.foldl_cons, ih hterms hnext, hop init t hinit, List.sum_cons, Nat.add_assoc]

/-- Two lanes of one component land at different output bits (R55). -/
theorem laneTerm_and_laneTerm (v : Nat) {k i i' : Nat} (hne : i ≠ i') (hroute : routeOf k i = routeOf k i') :
    laneTerm v k i &&& laneTerm v k i' = 0 := by
  have hshift : shiftOf k i ≠ shiftOf k i' := fun h => hne (eq_of_routeOf_eq_of_shiftOf_eq hroute h)
  refine Nat.eq_of_testBit_eq fun j => ?_
  rw [Nat.testBit_and, laneTerm, laneTerm, testBit_bitOf_shiftLeft, testBit_bitOf_shiftLeft, Nat.zero_testBit]
  by_cases hj : j = shiftOf k i <;> simp [hj, hshift]

theorem pairwise_termsOf (v k width c : Nat) : (termsOf v k width c).Pairwise fun a b => a &&& b = 0 := by
  refine List.pairwise_map.mpr ((List.nodup_range.filter _).imp_of_mem fun {i i'} hi hi' hne => ?_)
  simp only [List.mem_filter, decide_eq_true_iff] at hi hi'
  exact laneTerm_and_laneTerm v hne (hi.2.trans hi'.2.symm)

/-- Any combination that adds disjoint numbers gives the component's sum of terms. -/
theorem foldl_termsOf {op : Nat → Nat → Nat} (hop : ∀ a b, a &&& b = 0 → op a b = a + b) (v k width c : Nat) :
    (termsOf v k width c).foldl op 0 = (termsOf v k width c).sum := by
  rw [foldl_eq_add_sum hop (pairwise_termsOf v k width c) (by simp), Nat.zero_add]

/-! ## Bitwise operations and single bits (R58) -/

/-- The transform distributes over an operation that acts bit by bit and keeps 0. -/
theorem redLoop_bitwise {op : Nat → Nat → Nat} {bop : Bool → Bool → Bool}
    (hop : ∀ a b j, (op a b).testBit j = bop (a.testBit j) (b.testBit j)) (hfalse : bop false false = false)
    (a b k width : Nat) : redLoop (op a b) k width = List.zipWith op (redLoop a k width) (redLoop b k width) := by
  refine redLoop_eq_of_testBit (by simp) fun c hc j => ?_
  have hzip : (List.zipWith op (redLoop a k width) (redLoop b k width)).getD c 0 =
      op ((redLoop a k width).getD c 0) ((redLoop b k width).getD c 0) := by
    simp [hc]
  rw [hzip, hop, hop, testBit_getD_redLoop hc, testBit_getD_redLoop hc]
  cases decide (j * k + c < width) <;> simp [hfalse]

theorem redLoop_zero (k width : Nat) : redLoop 0 k width = List.replicate k 0 :=
  redLoop_eq_of_testBit List.length_replicate fun c hc j => by simp [hc]

theorem redLoop_two_pow {i width : Nat} (hi : i < width) (k : Nat) :
    redLoop (2 ^ i) k width = (List.replicate k 0).set (routeOf k i) (2 ^ shiftOf k i) := by
  refine redLoop_eq_of_testBit (by simp) fun c hc j => ?_
  have hplace := eq_mul_add_iff hc i j
  rw [List.getD_eq_getElem _ _ (by simpa), List.getElem_set, List.getElem_replicate, Nat.testBit_two_pow]
  by_cases hroute : routeOf k i = c
  · rw [if_pos hroute, Nat.testBit_two_pow, Bool.eq_iff_iff]
    simp only [decide_eq_true_iff, Bool.and_eq_true]
    omega
  · rw [if_neg hroute, Nat.zero_testBit, decide_eq_false (by omega : i ≠ j * k + c), Bool.and_false]

/-! ## The inverse (R60, R61) -/

/-- The inverse takes bit `i` from where lane `i` landed. -/
theorem testBit_merge (t : List Nat) (k width i : Nat) :
    (merge t k width).testBit i = (decide (i < width) && (t.getD (routeOf k i) 0).testBit (shiftOf k i)) := by
  rw [merge, testBit_foldl_or, Nat.zero_testBit, Bool.false_or, Bool.eq_iff_iff]
  simp only [testBit_bitOf_shiftLeft, List.any_eq_true, List.mem_range, Bool.and_eq_true, decide_eq_true_iff]
  constructor
  · rintro ⟨_, hi, rfl, hbit⟩
    exact ⟨hi, hbit⟩
  · rintro ⟨hi, hbit⟩
    exact ⟨i, hi, rfl, hbit⟩

theorem merge_lt_two_pow (t : List Nat) (k width : Nat) : merge t k width < 2 ^ width :=
  Nat.lt_pow_two_of_testBit _ fun i hi => by rw [testBit_merge, decide_eq_false (Nat.not_lt.mpr hi), Bool.false_and]

theorem merge_redLoop {v k width : Nat} (hv : v < 2 ^ width) (hk : 1 ≤ k) : merge (redLoop v k width) k width = v := by
  refine Nat.eq_of_testBit_eq fun i => ?_
  rw [testBit_merge, testBit_getD_redLoop (routeOf_lt hk i), shiftOf_mul_add_routeOf]
  by_cases hi : i < width
  · simp [hi]
  · have hbeyond : v < 2 ^ i := hv.trans_le (Nat.pow_le_pow_right (by decide) (Nat.le_of_not_lt hi))
    simp [hi, Nat.testBit_lt_two_pow hbeyond]

theorem redLoop_merge {t : List Nat} {k width : Nat} (hlen : t.length = k)
    (hfit : ∀ c < k, t.getD c 0 < 2 ^ bitCount k width c) : redLoop (merge t k width) k width = t := by
  refine redLoop_eq_of_testBit hlen fun c hc j => ?_
  obtain ⟨hroute, hshift⟩ := (eq_mul_add_iff hc _ j).mp rfl
  rw [testBit_merge, hroute, hshift]
  by_cases hj : j * k + c < width
  · simp [hj]
  · have hbeyond : t.getD c 0 < 2 ^ j :=
      (hfit c hc).trans_le (Nat.pow_le_pow_right (by decide) (by rw [← lt_bitCount_iff hc] at hj; omega))
    rw [Nat.testBit_lt_two_pow hbeyond, decide_eq_false hj, Bool.false_and]

theorem merge_of_redistribute {v k width : Nat} {t : List Nat} (h : redistribute v k width = some t) :
    merge t k width = v := by
  obtain ⟨⟨-, hv, hk⟩, rfl⟩ := redistribute_eq_some_iff.mp h
  exact merge_redLoop hv hk

theorem redistribute_merge {t : List Nat} {k width : Nat} (hwidth : 1 ≤ width) (hk : 1 ≤ k) (hlen : t.length = k)
    (hfit : ∀ c < k, t.getD c 0 < 2 ^ bitCount k width c) : redistribute (merge t k width) k width = some t :=
  redistribute_eq_some_iff.mpr ⟨⟨hwidth, merge_lt_two_pow .., hk⟩, redLoop_merge hlen hfit⟩

/-- The results of the transform are the tuples within the component ranges (R61). -/
theorem exists_redistribute_iff {k width : Nat} (hwidth : 1 ≤ width) (hk : 1 ≤ k) (t : List Nat) :
    (∃ v, redistribute v k width = some t) ↔ t.length = k ∧ ∀ c < k, t.getD c 0 < 2 ^ bitCount k width c := by
  constructor
  · rintro ⟨v, h⟩
    obtain ⟨-, rfl⟩ := redistribute_eq_some_iff.mp h
    exact ⟨length_redLoop .., fun c hc => getD_redLoop_lt hc v width⟩
  · exact fun ⟨hlen, hfit⟩ => ⟨_, redistribute_merge hwidth hk hlen hfit⟩

theorem existsUnique_redistribute {t : List Nat} {k width : Nat} (hwidth : 1 ≤ width) (hk : 1 ≤ k) (hlen : t.length = k)
    (hfit : ∀ c < k, t.getD c 0 < 2 ^ bitCount k width c) : ∃! v, redistribute v k width = some t :=
  ⟨_, redistribute_merge hwidth hk hlen hfit, fun _ h => (merge_of_redistribute h).symm⟩

end Sys2Proof.Machine

open Sys2Proof Sys2Proof.Machine

/-- Settles O7: the bits of a component are input bits, and a component is the sum of its bits at their weights. -/
theorem transformClosedForm : Obligations.TransformClosedForm := by
  unfold Obligations.TransformClosedForm
  intro v k width comps h c hc
  obtain ⟨-, rfl⟩ := redistribute_eq_some_iff.mp h
  exact ⟨bitOf_getD_redLoop hc v width, getD_redLoop_eq_closedComponent hc v width⟩

/-- Settles O8: position `i` is `shiftOf k i * k + routeOf k i`. -/
theorem positionBijection : Obligations.PositionBijection := by
  unfold Obligations.PositionBijection
  refine fun k width hk => ⟨fun _ _ => eq_of_routeOf_eq_of_shiftOf_eq, fun c j => ⟨?_, fun ⟨hc, hlt⟩ => ?_⟩⟩
  · rintro ⟨i, hi, rfl, rfl⟩
    exact ⟨routeOf_lt hk i, by rwa [shiftOf_mul_add_routeOf]⟩
  · exact ⟨j * k + c, hlt, (eq_mul_add_iff hc _ j).mp rfl⟩

/-- Settles O9: the positions routed to a component are those of its output bits, and all components receive all positions. -/
theorem componentWidths : Obligations.ComponentWidths := by
  unfold Obligations.ComponentWidths
  refine ⟨fun v k width comps h => ?_, fun k c hc => bitCount_le_width hc 24, by decide⟩
  obtain ⟨⟨-, -, hk⟩, rfl⟩ := redistribute_eq_some_iff.mp h
  refine ⟨sum_bitCount hk width, fun c hc => ⟨rfl, ?_, lt_bitCount_iff hc width, getD_redLoop_lt hc v width⟩⟩
  rw [(filter_routeOf_perm hc width).length_eq, List.length_map, List.length_range]

/-- Settles O10: with `k ≥ width` no output bit above bit 0 has an input bit. -/
theorem fanoutBeyondWidth : Obligations.FanoutBeyondWidth := by
  unfold Obligations.FanoutBeyondWidth
  refine ⟨fun v k width comps h hwidth => ?_, fun _ i _ => i.fanout_bounds.2⟩
  obtain ⟨-, rfl⟩ := redistribute_eq_some_iff.mp h
  refine ⟨fun c hc => ?_, fun c hc hck => ?_⟩
  · rw [getD_redLoop_of_width_le hwidth (hc.trans_le hwidth), if_pos hc]
  · rw [getD_redLoop_of_width_le hwidth hck, if_neg (by omega)]

/-- Settles O11: the terms of a component share no bit, so OR and exclusive OR add them. -/
theorem orIsSumIsXor : Obligations.OrIsSumIsXor := by
  unfold Obligations.OrIsSumIsXor
  intro v k width comps h c hc
  obtain ⟨-, rfl⟩ := redistribute_eq_some_iff.mp h
  have hsum : (redLoop v k width).getD c 0 = (termsOf v k width c).sum := by
    rw [getD_redLoop hc, foldl_termsOf fun _ _ => or_eq_add_of_and_eq_zero]
  refine ⟨getD_redLoop hc v width, hsum, hsum.trans (foldl_termsOf (fun a b hab => ?_) v k width c).symm⟩
  rw [xor_eq_or_of_and_eq_zero hab, or_eq_add_of_and_eq_zero hab]

/-- Settles O12: each component has the 1 bits of the positions routed to it. -/
theorem populationCountKept : Obligations.PopulationCountKept := by
  unfold Obligations.PopulationCountKept
  intro v k width comps h
  obtain ⟨⟨-, -, hk⟩, rfl⟩ := redistribute_eq_some_iff.mp h
  rw [redLoop_eq_map_getD, List.map_map, sum_range_eq_sum_components hk width]
  exact congrArg List.sum (List.map_congr_left fun c hc => sum_bitOf_getD_redLoop (List.mem_range.mp hc) v width)

/-- Settles O13: each output bit is one input bit, so the transform distributes over an operation on bits. -/
theorem transformIsLinear : Obligations.TransformIsLinear := by
  unfold Obligations.TransformIsLinear
  refine ⟨fun a b k width ca cb hca hcb => ?_, fun k width hwidth hk => ?_⟩
  · obtain ⟨⟨hwidth, ha, hk⟩, rfl⟩ := redistribute_eq_some_iff.mp hca
    obtain ⟨⟨-, hb, -⟩, rfl⟩ := redistribute_eq_some_iff.mp hcb
    simp only [redistribute_eq_some_iff]
    exact ⟨⟨⟨hwidth, Nat.or_lt_two_pow ha hb, hk⟩, redLoop_bitwise Nat.testBit_or rfl a b k width⟩,
      ⟨⟨hwidth, Nat.and_lt_two_pow a hb, hk⟩, redLoop_bitwise Nat.testBit_and rfl a b k width⟩,
      ⟨⟨hwidth, Nat.xor_lt_two_pow ha hb, hk⟩, redLoop_bitwise Nat.testBit_xor rfl a b k width⟩⟩
  · exact redistribute_eq_some_iff.mpr ⟨⟨hwidth, Nat.two_pow_pos width, hk⟩, redLoop_zero k width⟩

/-- Settles O14: the one 1 bit goes where its lane lands. -/
theorem singleBitRouting : Obligations.SingleBitRouting := by
  unfold Obligations.SingleBitRouting
  exact fun i k width hi hk => redistribute_eq_some_iff.mpr
    ⟨⟨by omega, Nat.pow_lt_pow_right (by decide) hi, hk⟩, redLoop_two_pow hi k⟩

/-- Settles O15: both directions hold bit by bit. -/
theorem mergeRoundTrip : Obligations.MergeRoundTrip := by
  unfold Obligations.MergeRoundTrip
  exact ⟨fun _ _ _ _ => merge_of_redistribute, fun _ _ _ => redistribute_merge⟩

/-- Settles O16: the inverse makes the transform injective and reaches every tuple within the ranges. -/
theorem transformBijective : Obligations.TransformBijective := by
  unfold Obligations.TransformBijective
  refine ⟨fun k width hwidth hk => ⟨fun v v' t h h' => ?_, exists_redistribute_iff hwidth hk, ?_⟩, ?_, ?_⟩
  · exact (merge_of_redistribute h).symm.trans (merge_of_redistribute h')
  · calc _ = 2 ^ ((List.range k).map (bitCount k width)).sum := Finset.prod_pow_eq_pow_sum (Finset.range k) _ 2
      _ = 2 ^ width := by rw [sum_bitCount hk width]
  · intro x y hx hy
    refine existsUnique_redistribute (by decide) (by decide) rfl fun c hc => ?_
    interval_cases c
    exacts [hx, hy]
  · intro r g b hr hg hb
    refine existsUnique_redistribute (by decide) (by decide) rfl fun c hc => ?_
    interval_cases c
    exacts [hr, hg, hb]

/-- Settles O17: two accumulation steps commute. -/
theorem accumulationOrderFree : Obligations.AccumulationOrderFree := by
  unfold Obligations.AccumulationOrderFree
  exact fun v k width order h => foldl_accumulate_eq_of_perm h v k _

/-- Settles O18: the rounds are an order of the positions, and component 0 receives one bit in each. -/
theorem roundByRound : Obligations.RoundByRound := by
  unfold Obligations.RoundByRound
  refine ⟨fun v k width hk => ⟨redRounds_eq_redLoop hk v width, mem_roundLanes hk width,
    fun s c hc => (eq_mul_add_iff hc _ s).mp rfl, lt_rounds_iff hk width, fun hrem => ?_, fun hrem => ?_⟩, by decide⟩
  · refine ⟨?_, length_roundLanes_last hk width⟩
    rw [rounds_eq_bitCount hk, bitCount, if_pos (Nat.pos_of_ne_zero hrem)]
  · rw [rounds_eq_bitCount hk, bitCount, if_neg (by omega)]

/-- Settles O6, by the preconditions of the transform. -/
theorem transformDomain : Obligations.TransformDomain := by
  unfold Obligations.TransformDomain
  intro v k width
  refine ⟨fun hwidth hv hk => ?_, fun hout => if_neg (by omega)⟩
  exact ⟨_, redistribute_eq_some_iff.mpr ⟨⟨hwidth, hv, hk⟩, rfl⟩, length_redLoop v k width⟩
end

section
/-! SUPPORT. The statements of the family 41_split.md: the registers a SPLIT writes, as bits and as numbers (O19, O21 to O25), the
values that reach a given result (O21, O22), and what a SPLIT leaves unchanged (O26). -/

namespace Sys2Proof

/-- The word of a form with its fan-out as a numeral (R34, R44). -/
theorem toNat_encode_of_fanout {i : Instr} {k n : Nat} (hk : i.fanout = k) (hn : k * 2 ^ 24 = n) :
    (encode i).toNat = n + i.value.toNat := by
  rw [toNat_encode, hk, hn]

end Sys2Proof

namespace Sys2Proof.Machine

/-! ## The registers a SPLIT writes (R64, R69) -/

/-- A register holds its component without loss, and 0 beyond the tuple (R14, R64). -/
theorem toNat_splitResult_getElem {c : Nat} (hc : c < 24) (k : Nat) (v : Value) :
    (splitResult k v)[c].toNat = (redLoop v.toNat k 24).getD c 0 := by
  rw [splitResult, Config.width, latch_getElem _ _ hc, BitVec.toNat_ofNat]
  refine Nat.mod_eq_of_lt ?_
  by_cases hck : c < (redLoop v.toNat k 24).length
  · rw [List.getD_eq_getElem _ _ hck]
    exact redLoop_lt_two_pow _ _ _ _ (List.getElem_mem hck)
  · rw [List.getD_eq_default _ _ (Nat.le_of_not_lt hck)]
    decide

/-- Registers beyond the fan-out are 0 (R64). -/
theorem splitResult_getElem_of_fanout_le {k c : Nat} (hc : c < 24) (hck : k ≤ c) (v : Value) :
    (splitResult k v)[c] = 0#24 :=
  latch_getElem_of_length_le hc (by rwa [length_redLoop])

/-- Bit `j` of component `c` is value bit `j * k + c`; the value has no bit beyond its width (R64). -/
theorem getLsbD_splitResult_getElem {k c : Nat} (hc : c < 24) (hck : c < k) (v : Value) (j : Nat) :
    (splitResult k v)[c].getLsbD j = v.getLsbD (j * k + c) := by
  rw [← BitVec.testBit_toNat, toNat_splitResult_getElem hc, testBit_getD_redLoop hck, BitVec.testBit_toNat]
  by_cases hj : j * k + c < 24
  · rw [decide_eq_true hj, Bool.true_and]
  · rw [BitVec.getLsbD_of_ge _ _ (Nat.le_of_not_lt hj), Bool.and_false]

/-- A register is below 2 to the number of value bits it receives (R56). -/
theorem toNat_splitResult_getElem_lt {k c : Nat} (hc : c < 24) (hck : c < k) (v : Value) :
    (splitResult k v)[c].toNat < 2 ^ bitCount k 24 c := by
  rw [toNat_splitResult_getElem hc]
  exact getD_redLoop_lt hck v.toNat 24

/-- The all-ones value fills every component (R69). -/
theorem getD_redLoop_two_pow_sub_one {k c : Nat} (hc : c < k) (width : Nat) :
    (redLoop (2 ^ width - 1) k width).getD c 0 = 2 ^ bitCount k width c - 1 := by
  refine Nat.eq_of_testBit_eq fun j => ?_
  rw [testBit_getD_redLoop hc, Nat.testBit_two_pow_sub_one, Nat.testBit_two_pow_sub_one, Bool.and_self]
  exact decide_eq_decide.mpr (lt_bitCount_iff hc width j).symm

/-! ## At most two bits per component (R68) -/

theorem bitOf_zero_add_two_mul_bitOf_one {x : Nat} (hx : x < 4) : bitOf x 0 + 2 * bitOf x 1 = x := by
  unfold bitOf
  omega

/-- A fan-out of at least half the width leaves two bits to the first components and one, or none, to the others. -/
theorem getD_redLoop_of_width_le_two_mul {k c width : Nat} (hwidth : width ≤ 2 * k) (hc : c < k) (v : Nat) :
    (redLoop v k width).getD c 0 =
      if c + k < width then bitOf v c + 2 * bitOf v (c + k) else if c < width then bitOf v c else 0 := by
  have hcount : bitCount k width c ≤ 2 := by
    have htwo := lt_bitCount_iff hc width 2
    omega
  have hlt : (redLoop v k width).getD c 0 < 4 :=
    (getD_redLoop_lt hc v width).trans_le (Nat.pow_le_pow_right (by decide) hcount)
  rw [← bitOf_zero_add_two_mul_bitOf_one hlt, bitOf_getD_redLoop hc, bitOf_getD_redLoop hc, Nat.zero_mul, Nat.zero_add,
    Nat.one_mul, Nat.add_comm k c]
  by_cases hboth : c + k < width
  · rw [if_pos hboth, if_pos hboth, if_pos (by omega)]
  · rw [if_neg hboth, if_neg hboth, Nat.mul_zero, Nat.add_zero]

/-- The rounds of a fan-out of 13 to 24 (R53, R68). -/
theorem rounds_of_thirteen_le {k : Nat} (hk : 13 ≤ k) (hk' : k ≤ 24) : rounds k 24 = if k = 24 then 1 else 2 := by
  have hpos : 1 ≤ k := by omega
  have hzero := lt_rounds_iff hpos 24 0
  have hone := lt_rounds_iff hpos 24 1
  have htwo := lt_rounds_iff hpos 24 2
  split <;> omega

/-- The second round of such a fan-out has the lanes the first one left (R53, R68). -/
theorem length_roundLanes_one_of_thirteen_le {k : Nat} (hk : 13 ≤ k) (hk' : k ≤ 24) :
    (roundLanes k 24 1).length = 24 - k := by
  have hdiv : 24 / k = 1 := by
    rw [Nat.div_eq_iff (by omega)]
    omega
  have hlast := length_roundLanes_last (by omega : 1 ≤ k) 24
  have hrem := Nat.div_add_mod' 24 k
  rw [hdiv] at hlast hrem
  omega

/-! ## The value behind a result (R60, R61) -/

/-- Where one number transforms to a tuple, one value of the operand field does. -/
theorem existsUnique_value_redLoop_eq {t : List Nat} {k : Nat} (h : ∃! n, redistribute n k 24 = some t) :
    ∃! v : Value, redLoop v.toNat k 24 = t := by
  obtain ⟨n, hn, hunique⟩ := h
  obtain ⟨⟨hwidth, hfit, hk⟩, hloop⟩ := redistribute_eq_some_iff.mp hn
  refine ⟨BitVec.ofNatLT n hfit, hloop, fun v hv => BitVec.eq_of_toNat_eq (hunique _ ?_)⟩
  exact redistribute_eq_some_iff.mpr ⟨⟨hwidth, v.isLt, hk⟩, hv⟩

/-- An instruction completes in one state, so what it completes with is what that state is (R64). -/
theorem exists_exec_eq_next_and_iff (i : Instr) (s : State) (p : State → Prop) :
    (∃ t, exec i s = .next t ∧ p t) ↔ p (s.split i.fanout i.value) := by
  rw [exec_eq_split]
  simp only [Host.Outcome.next.injEq, exists_eq_left']

/-- What every SPLIT does apart from the components it writes: zeros beyond them, `RES_K`, `VALID`, and the error record
kept (R64). -/
theorem State.split_beyond_components (s : State) (k : Nat) (v : Value) :
    (∀ c, ∀ hc : c < 24, k ≤ c → (s.split k v).engine.res[c] = 0#24) ∧
    (s.split k v).engine.resK = BitVec.ofNat 5 k ∧ (s.split k v).engine.valid = true ∧
    (s.split k v).engine.err = s.engine.err ∧ (s.split k v).engine.errCause = s.engine.errCause :=
  ⟨fun _ hc hck => splitResult_getElem_of_fanout_le hc hck v, rfl, rfl, Engine.split_err .., Engine.split_errCause ..⟩

end Sys2Proof.Machine

open Sys2Proof Sys2Proof.Machine

/-- Settles O19: below the fan-out a register's bits are value bits, and the registers beyond it are 0. -/
theorem splitResultBits : Obligations.SplitResultBits := by
  unfold Obligations.SplitResultBits
  refine fun i s => ⟨toNat_encode i, _, exec_eq_split i s, fun c j hc _ => ?_, Instr.toNat_ofNat_fanout i, rfl, by simp⟩
  rw [State.split_engine, Engine.split_res]
  by_cases hck : c < i.fanout
  · rw [getLsbD_splitResult_getElem hc hck]
    by_cases hj : j * i.fanout + c < 24
    · simp [hck, hj]
    · simp [BitVec.getLsbD_of_ge _ _ (Nat.le_of_not_lt hj)]
  · simp [splitResult_getElem_of_fanout_le hc (Nat.le_of_not_lt hck), hck]

/-- Settles O21: the bits and the range of the two components, and the one value behind each pair. -/
theorem coordForm : Obligations.CoordForm := by
  unfold Obligations.CoordForm
  refine fun value s => ⟨toNat_encode_of_fanout (k := 2) rfl rfl, ?_, fun x y hx hy => ?_⟩
  · refine ⟨s.split 2 value, exec_eq_split (.split2 value) s, fun j _ => ?_,
      toNat_splitResult_getElem_lt (by decide) (by decide) value,
      toNat_splitResult_getElem_lt (by decide) (by decide) value,
      State.split_beyond_components s 2 value⟩
    rw [State.split_engine, Engine.split_res, Nat.mul_comm]
    exact ⟨getLsbD_splitResult_getElem (by decide) (by decide) value j,
      getLsbD_splitResult_getElem (by decide) (by decide) value j⟩
  · obtain ⟨-, hcoord, -⟩ := transformBijective
    refine (existsUnique_congr fun v => ?_).mpr (existsUnique_value_redLoop_eq (hcoord x y hx hy))
    rw [exists_exec_eq_next_and_iff, redLoop_eq_map_getD, State.split_engine, Engine.split_res,
      toNat_splitResult_getElem, toNat_splitResult_getElem]
    simp [Instr.fanout, Instr.value, List.range_succ]

/-- Settles O22: the bits and the range of the three components, and the one value behind each colour. -/
theorem colorForm : Obligations.ColorForm := by
  unfold Obligations.ColorForm
  refine fun value s => ⟨toNat_encode_of_fanout (k := 3) rfl rfl, ?_, fun r g b hr hg hb => ?_⟩
  · refine ⟨s.split 3 value, exec_eq_split (.split3 value) s, fun j _ => ?_,
      toNat_splitResult_getElem_lt (by decide) (by decide) value,
      toNat_splitResult_getElem_lt (by decide) (by decide) value,
      toNat_splitResult_getElem_lt (by decide) (by decide) value,
      State.split_beyond_components s 3 value⟩
    rw [State.split_engine, Engine.split_res, Nat.mul_comm]
    exact ⟨getLsbD_splitResult_getElem (by decide) (by decide) value j,
      getLsbD_splitResult_getElem (by decide) (by decide) value j,
      getLsbD_splitResult_getElem (by decide) (by decide) value j⟩
  · obtain ⟨-, -, hcolour⟩ := transformBijective
    refine (existsUnique_congr fun v => ?_).mpr (existsUnique_value_redLoop_eq (hcolour r g b hr hg hb))
    rw [exists_exec_eq_next_and_iff, redLoop_eq_map_getD, State.split_engine, Engine.split_res,
      toNat_splitResult_getElem, toNat_splitResult_getElem, toNat_splitResult_getElem]
    simp [Instr.fanout, Instr.value, List.range_succ]

/-- Settles O23: with fan-out 1 bit `j` of the one component is value bit `j`. -/
theorem identityForm : Obligations.IdentityForm := by
  unfold Obligations.IdentityForm
  refine fun value s => ⟨toNat_encode_of_fanout (k := 1) rfl rfl, s.split 1 value, exec_eq_split (.split1 value) s, ?_,
    State.split_beyond_components s 1 value⟩
  rw [State.split_engine, Engine.split_res]
  refine BitVec.eq_of_getLsbD_eq fun j _ => ?_
  rw [getLsbD_splitResult_getElem (by decide) (by decide), Nat.mul_one, Nat.add_zero]

/-- Settles O24: with 13 to 24 components two rounds suffice, and the second is the bits beyond the fan-out. -/
theorem oneOrTwoBitForms : Obligations.OneOrTwoBitForms := by
  unfold Obligations.OneOrTwoBitForms
  refine ⟨fun value => toNat_encode_of_fanout (k := 24) rfl rfl, fun i hi => ?_, fun i s hi => ?_⟩
  · exact ⟨rounds_of_thirteen_le hi i.fanout_bounds.2, length_roundLanes_one_of_thirteen_le hi i.fanout_bounds.2⟩
  obtain ⟨-, hk⟩ := i.fanout_bounds
  refine ⟨_, exec_eq_split i s, fun c hc => ?_, Instr.toNat_ofNat_fanout i, rfl, by simp⟩
  rw [State.split_engine, Engine.split_res]
  by_cases hck : c < i.fanout
  · rw [toNat_splitResult_getElem hc, getD_redLoop_of_width_le_two_mul (by omega) hck, if_pos hc, if_pos hck]
    simp only [Nat.lt_sub_iff_add_lt]
  · rw [splitResult_getElem_of_fanout_le hc (Nat.le_of_not_lt hck), if_neg (by omega), if_neg hck]
    rfl

/-- Settles O25: a component has no bit beyond those it receives, and the all-ones value sets them all. -/
theorem componentMasks : Obligations.ComponentMasks := by
  unfold Obligations.ComponentMasks
  refine fun i s => ⟨_, exec_eq_split i s, fun c hc hck => ?_⟩
  rw [State.split_engine, Engine.split_res]
  refine ⟨?_, fun hones => ?_⟩
  · rw [Nat.and_two_pow_sub_one_eq_mod, Nat.mod_eq_of_lt (toNat_splitResult_getElem_lt hc hck i.value)]
  · rw [toNat_splitResult_getElem hc, hones]
    exact getD_redLoop_two_pow_sub_one hck 24

/-- Settles O26: a SPLIT changes no field of the state but the registers, and there only its destinations. -/
theorem splitFrame : Obligations.SplitFrame := by
  unfold Obligations.SplitFrame
  intro i s t h
  rw [exec_eq_split, Host.Outcome.next.injEq] at h
  subst h
  simp
end

section
/-! SUPPORT. The statements of the family 60_exceptions.md: what an illegal word does to the error record (O30 to O32), that the
record gates nothing (O33), that every step completes (O37), the runs that end error-free (O39), and engines side by side (O50). -/

namespace Sys2Proof

theorem rejection_ne_none_iff (w : CommandWord) : rejection w ≠ none ↔ ∃ c, decode w = .illegal c := by
  simp only [Option.ne_none_iff_exists', rejection_eq_some_iff]

end Sys2Proof

namespace Sys2Proof.Machine

/-! ## The error record under an issued word (R76, R77, R79) -/

theorem keptCause_of_err_eq_false {e : Engine} (h : e.err = false) (c : Cause) : keptCause e c = causeCode c := by
  simp only [keptCause, h, Bool.false_eq_true, if_false]

theorem keptCause_of_err_eq_true {e : Engine} (h : e.err = true) (c : Cause) : keptCause e c = e.errCause := by
  simp only [keptCause, h, if_true]

/-- A command error after the first one changes no register (R77). -/
theorem Engine.commandError_of_err_eq_true {e : Engine} (h : e.err = true) (c : Cause) : e.commandError c = e := by
  simp only [Engine.commandError, keptCause_of_err_eq_true h, ← h]

/-- No word, legal or not, changes an error record that holds an error (R77). -/
theorem Engine.issue_record_of_err_eq_true {e : Engine} (h : e.err = true) (w : CommandWord) :
    (e.issue w).err = true ∧ (e.issue w).errCause = e.errCause := by
  cases hw : decode w with
  | instr i => rw [Engine.issue_of_instr e hw, Engine.split_err, Engine.split_errCause]; exact ⟨h, rfl⟩
  | illegal c => rw [Engine.issue_of_illegal e hw, Engine.commandError_of_err_eq_true h]; exact ⟨h, rfl⟩

/-- `ERR` is 0 after a word exactly when it was 0 before and the word is legal (R73). -/
theorem Engine.issue_err_eq_false_iff (e : Engine) (w : CommandWord) :
    (e.issue w).err = false ↔ e.err = false ∧ rejection w = none := by
  cases hw : decode w with
  | instr i => simp [Engine.issue_of_instr e hw, rejection, hw]
  | illegal c => simp [Engine.issue_of_illegal e hw, rejection, hw]

/-- A SPLIT neither reads nor writes the error record (R79). -/
theorem Engine.split_withErrorRecord (e : Engine) (err : Bool) (cause : CauseCode) (k : Nat) (v : Value) :
    { e with err := err, errCause := cause }.split k v = { e.split k v with err := err, errCause := cause } := by
  simp only [Engine.split]

/-- The code of a rejected word's cause, from the word's fields (R74, R75). -/
theorem toNat_causeCode_of_mem_words {c : Cause} {n : Nat} (h : n ∈ c.words) :
    (causeCode c).toNat =
      if n / 2 ^ 29 ≠ 0 then 1 else if n / 2 ^ 24 = 0 then 2 else if 24 < n / 2 ^ 24 then 3 else 0 := by
  cases c <;> rw [Cause.words, Finset.mem_Ico] at h
  case illegalOp =>
    rw [if_pos (by omega)]
    rfl
  case fanoutZero =>
    rw [if_neg (by omega), if_pos (by omega)]
    rfl
  case fanoutRange =>
    rw [if_neg (by omega), if_neg (by omega), if_pos (by omega)]
    rfl

/-! ## Runs that end error-free (R73, R99) -/

theorem safeRun_succ {n : Nat} {s t : State} (h : step s = .next t) : SafeRun (n + 1) s ↔ SafeRun n t := by
  rw [SafeRun, run_succ h, SafeRun]

theorem safeRun_zero (s : State) : SafeRun 0 s ↔ ErrorFree s := by
  simp only [SafeRun, run_zero, Host.Outcome.next.injEq, exists_eq_left']

/-- An action that is not `Reset` leaves the engine error-free exactly when it was so before and the action issues no illegal
word. -/
theorem exists_step_errorFree_iff {s : State} {a : HostAction} {rest : List HostAction} (h : s.pending = a :: rest)
    (ha : a ≠ .reset) :
    ∃ t, step s = .next t ∧ t.pending = rest ∧
      (ErrorFree t ↔ ErrorFree s ∧ ∀ w, .issue w = a → rejection w = none) := by
  cases a with
  | reset => contradiction
  | read => exact ⟨_, step_of_read h, State.doRead_pending _, by simp [ErrorFree]⟩
  | issue w => exact ⟨_, step_of_issue h, rfl, by simp [ErrorFree, Engine.issue_err_eq_false_iff]⟩

/-- Without a `Reset` nothing clears `ERR`, so a run ends error-free exactly when it begins so and every word is legal. -/
theorem safeRun_length_iff {acts : List HostAction} {s : State} (h : s.pending = acts) (hreset : .reset ∉ acts) :
    SafeRun acts.length s ↔ ErrorFree s ∧ ∀ w, .issue w ∈ acts → rejection w = none := by
  induction acts generalizing s with
  | nil => simp [safeRun_zero]
  | cons a rest ih =>
    rw [List.mem_cons, not_or] at hreset
    obtain ⟨ha, hrest⟩ := hreset
    obtain ⟨t, hstep, hpending, hfree⟩ := exists_step_errorFree_iff h (Ne.symm ha)
    rw [List.length_cons, safeRun_succ hstep, ih hpending hrest, hfree]
    simp only [List.mem_cons, or_imp, forall_and, and_assoc]

end Sys2Proof.Machine

open Sys2Proof Sys2Proof.Machine

/-- Settles O31: a rejected word records its cause's code, and a legal one keeps the code 0. -/
theorem causeCodesRecorded : Obligations.CauseCodesRecorded := by
  unfold Obligations.CauseCodesRecorded
  intro s w rest hpending herr hcause
  refine ⟨_, step_of_issue hpending, ?_⟩
  obtain ⟨c, hc, hwords⟩ | ⟨i, hi, rfl⟩ := decode_cases w
  · rw [Engine.issue_of_illegal _ hc, Engine.commandError_errCause, keptCause_of_err_eq_false herr]
    exact toNat_causeCode_of_mem_words hwords
  · have hlegal := encode_mem_legalWords i
    rw [legalWords, Finset.mem_Ico] at hlegal
    rw [Engine.issue_of_instr _ hi, Engine.split_errCause, hcause, if_neg (by omega), if_neg (by omega), if_neg (by omega)]
    rfl

/-- Settles O32: a Read changes no register, and no word changes a record that holds an error. -/
theorem firstCauseWins : Obligations.FirstCauseWins := by
  unfold Obligations.FirstCauseWins
  intro s t herr hreset hstep
  obtain ⟨hp, rfl⟩ | ⟨rest, hp, -⟩ | ⟨rest, hp, rfl⟩ | ⟨w, rest, hp, rfl⟩ := step_cases hstep
  · exact ⟨herr, rfl, fun _ _ _ _ => rfl⟩
  · exact absurd hp (hreset rest)
  · rw [State.doRead_engine]
    exact ⟨herr, rfl, fun _ _ _ _ => rfl⟩
  · obtain ⟨herr', hcause⟩ := Engine.issue_record_of_err_eq_true herr w
    refine ⟨herr', hcause, fun w' rest' hp' hw' => ?_⟩
    obtain ⟨rfl, -⟩ : w = w' ∧ rest = rest' := by simpa using hp.symm.trans hp'
    obtain ⟨c, hc⟩ := (rejection_ne_none_iff w).mp hw'
    exact (Engine.issue_of_illegal s.engine hc).trans (Engine.commandError_of_err_eq_true herr c)

/-- Settles O39, by the induction on the pending actions in `safeRun_length_iff`. -/
theorem errorFreeRuns : Obligations.ErrorFreeRuns := by
  unfold Obligations.ErrorFreeRuns
  intro s hfree hreset
  rw [safeRun_length_iff rfl hreset, and_iff_right hfree]

/-- Settles O50: every step completes, and the system writes back only the engine that moved. -/
theorem enginesAreIndependent : Obligations.EnginesAreIndependent := by
  unfold Obligations.EnginesAreIndependent
  intro sys j s hs
  obtain ⟨t, ht⟩ := exists_step_eq_next s
  obtain ⟨hj, -⟩ := List.getElem?_eq_some_iff.mp hs
  exact ⟨sys.set j t, t, by simp only [systemStep, hs, ht], ht, List.getElem?_set_self hj, List.length_set,
    fun i hi => List.getElem?_set_ne (Ne.symm hi)⟩

/-- Settles O30: an illegal word is a command error, which writes the error record alone. -/
theorem commandErrorAction : Obligations.CommandErrorAction := by
  unfold Obligations.CommandErrorAction
  intro s w rest c hpending hc
  refine ⟨_, step_of_issue hpending, ?_⟩
  rw [Engine.issue_of_illegal _ hc]
  refine ⟨rfl, ?_, rfl, rfl, rfl, rfl, rfl, rfl, rfl⟩
  cases herr : s.engine.err with
  | false => exact keptCause_of_err_eq_false herr c
  | true => exact keptCause_of_err_eq_true herr c

/-- Settles O33: a legal word is a SPLIT, which passes any error record through. -/
theorem errorGatesNothing : Obligations.ErrorGatesNothing := by
  unfold Obligations.ErrorGatesNothing
  intro s w rest e c hpending hlegal
  obtain ⟨i, hi⟩ := exists_decode_of_rejection_eq_none hlegal
  refine ⟨_, _, step_of_issue hpending, step_of_issue hpending, ?_⟩
  rw [Engine.issue_of_instr _ hi, Engine.issue_of_instr _ hi]
  exact ⟨rfl, Engine.split_withErrorRecord ..⟩

/-- Settles O37: every step completes, and each of the actions it can take is taken off. -/
theorem neverStuck : Obligations.NeverStuck := by
  unfold Obligations.NeverStuck
  intro s
  obtain ⟨t, ht⟩ := exists_step_eq_next s
  refine ⟨t, ht, ?_⟩
  obtain ⟨hp, rfl⟩ | ⟨rest, hp, rfl⟩ | ⟨rest, hp, rfl⟩ | ⟨w, rest, hp, rfl⟩ := step_cases ht
  · rw [hp, List.tail_nil]
  · rw [State.doReset_pending, hp, List.tail_cons]
  · rw [State.doRead_pending, hp, List.tail_cons]
  · rw [hp, List.tail_cons]
end

section
/-! SUPPORT. The statements of the family 70_reset_and_hazards.md: what each host action does to the flags and the read log (O29,
O34 to O36, O40), that unspecified registers cannot be told apart from outside (O38, O47), the output wires (O44, O45), and a command
in flight, edge by edge (O46, O48). -/

namespace Sys2Proof.Machine

/-! ## Registers alike but for an unspecified result (R23, R88, R92) -/

/-- The flags agree, and all registers do where `VALID` is 1. -/
def Engine.Agree (e e' : Engine) : Prop :=
  e.valid = e'.valid ∧ e.err = e'.err ∧ e.errCause = e'.errCause ∧ (e.valid = true → e = e')

/-- Whatever the unspecified items hold after a `Reset` (R87). -/
theorem Engine.agree_afterReset (stream draw stream' draw' : Nat) :
    (Engine.afterReset stream draw).Agree (Engine.afterReset stream' draw') :=
  ⟨rfl, rfl, rfl, fun h => Bool.noConfusion h⟩

theorem Engine.agree_readView (e : Engine) (stream draw : Nat) : (e.readView stream draw).Agree e := by
  obtain ⟨hvalid, herr, hcause⟩ := readView_flags e stream draw
  exact ⟨hvalid, herr, hcause, fun h => readView_of_valid e stream draw (hvalid.symm.trans h)⟩

/-- A SPLIT overwrites everything in which registers that agree may differ (R64). -/
theorem Engine.Agree.split_eq {e e' : Engine} (h : e.Agree e') (k : Nat) (v : Value) : e.split k v = e'.split k v := by
  obtain ⟨-, herr, hcause, -⟩ := h
  simp only [Engine.split, herr, hcause]

theorem Engine.Agree.commandError {e e' : Engine} (h : e.Agree e') (c : Cause) :
    (e.commandError c).Agree (e'.commandError c) := by
  obtain ⟨hvalid, herr, hcause, heq⟩ := h
  exact ⟨hvalid, rfl, by simp only [Engine.commandError_errCause, keptCause, herr, hcause],
    fun hv => congrArg (Engine.commandError · c) (heq hv)⟩

theorem Engine.Agree.issue {e e' : Engine} (h : e.Agree e') (w : CommandWord) : (e.issue w).Agree (e'.issue w) := by
  cases hw : decode w with
  | instr i =>
    rw [Engine.issue_of_instr e hw, Engine.issue_of_instr e' hw, h.split_eq]
    exact ⟨rfl, rfl, rfl, fun _ => rfl⟩
  | illegal c =>
    rw [Engine.issue_of_illegal e hw, Engine.issue_of_illegal e' hw]
    exact h.commandError c

/-- No word clears `VALID`. -/
theorem Engine.issue_valid_of_valid {e : Engine} (h : e.valid = true) (w : CommandWord) : (e.issue w).valid = true := by
  cases hw : decode w with
  | instr i => rw [Engine.issue_of_instr e hw, Engine.split_valid]
  | illegal c => rw [Engine.issue_of_illegal e hw, Engine.commandError_valid, h]

/-! ## The registers after a list of actions without `Reset` (R92) -/

/-- The word a host action issues, if it issues one. -/
def HostAction.word? : HostAction → Option CommandWord
  | .issue w => some w
  | .reset | .read => none

/-- Without a `Reset` only the issued words touch the registers, each after the one before it. -/
theorem exists_run_engine {acts : List HostAction} {s : State} (h : s.pending = acts) (hreset : .reset ∉ acts) :
    ∃ t, run acts.length s = .next t ∧ t.engine = (acts.filterMap HostAction.word?).foldl Engine.issue s.engine := by
  induction acts generalizing s with
  | nil => exact ⟨s, run_zero s, rfl⟩
  | cons a rest ih =>
    rw [List.mem_cons, not_or] at hreset
    obtain ⟨ha, hrest⟩ := hreset
    cases a with
    | reset => contradiction
    | read =>
      obtain ⟨t, hrun, ht⟩ := ih (State.doRead_pending { s with pending := rest }) hrest
      exact ⟨t, (run_succ (step_of_read h)).trans hrun, by rw [ht, State.doRead_engine]; rfl⟩
    | issue w =>
      obtain ⟨t, hrun, ht⟩ := ih (s := { s with pending := rest, engine := s.engine.issue w }) rfl hrest
      exact ⟨t, (run_succ (step_of_issue h)).trans hrun, ht⟩

theorem exists_run_reset_engine {acts : List HostAction} (s : State) (hreset : .reset ∉ acts) :
    ∃ t, run (acts.length + 1) { s with pending := .reset :: acts } = .next t ∧
      t.engine = (acts.filterMap HostAction.word?).foldl Engine.issue (Engine.afterReset s.stream s.draws) := by
  obtain ⟨t, hrun, ht⟩ := exists_run_engine (s := State.doReset { s with pending := acts }) (State.doReset_pending _) hreset
  exact ⟨t, (run_succ (step_of_reset rfl)).trans hrun, ht⟩

theorem Engine.Agree.foldl_issue {e e' : Engine} (h : e.Agree e') (words : List CommandWord) :
    (words.foldl Engine.issue e).Agree (words.foldl Engine.issue e') := by
  induction words generalizing e e' with
  | nil => exact h
  | cons w words ih => exact ih (h.issue w)

/-- A legal word makes registers that agree equal, and the words after it keep them so. -/
theorem Engine.Agree.foldl_issue_eq {e e' : Engine} (h : e.Agree e') {words : List CommandWord} {w : CommandWord}
    (hmem : w ∈ words) (hlegal : rejection w = none) : words.foldl Engine.issue e = words.foldl Engine.issue e' := by
  obtain ⟨i, hi⟩ := exists_decode_of_rejection_eq_none hlegal
  obtain ⟨before, after, rfl⟩ := List.append_of_mem hmem
  have hbefore := h.foldl_issue before
  simp only [List.foldl_append, List.foldl_cons, Engine.issue_of_instr _ hi, hbefore.split_eq]

/-! ## The output wires (R28, R91, R94) -/

namespace SignalState

@[simp] theorem outputs_resK (s : SignalState) : s.outputs.resK = s.engine.resK := rfl
@[simp] theorem outputs_resData (s : SignalState) : s.outputs.resData = resDataOf s.engine.res := rfl
@[simp] theorem outputs_err (s : SignalState) : s.outputs.err = s.engine.err := rfl
@[simp] theorem outputs_errCause (s : SignalState) : s.outputs.errCause = s.engine.errCause := rfl
@[simp] theorem outputs_cmdReady (s : SignalState) : s.outputs.cmdReady = s.inFlight.isNone := rfl
@[simp] theorem outputs_resValid (s : SignalState) : s.outputs.resValid = (s.engine.valid && !s.splitInFlight) := rfl

theorem splitInFlight_eq_true_iff (s : SignalState) :
    s.splitInFlight = true ↔ ∃ f, s.inFlight = some f ∧ rejection f.word = none := by
  unfold splitInFlight
  cases s.inFlight <;> simp

theorem splitInFlight_eq_false_iff (s : SignalState) :
    s.splitInFlight = false ↔ ∀ f, s.inFlight = some f → rejection f.word ≠ none := by
  simp [← Bool.not_eq_true, splitInFlight_eq_true_iff]

end SignalState

/-- An OR of vectors has the bits of the vectors. -/
theorem getLsbD_foldl_or {α : Type} {n : Nat} (term : α → BitVec n) (lanes : List α) (init : BitVec n) (j : Nat) :
    (lanes.foldl (fun x i => x ||| term i) init).getLsbD j = (init.getLsbD j || lanes.any fun i => (term i).getLsbD j) := by
  induction lanes generalizing init with
  | nil => simp
  | cons i lanes ih => rw [List.foldl_cons, ih, BitVec.getLsbD_or, List.any_cons, Bool.or_assoc]

/-- A register reaches no bit of `res_data` outside its own 24. -/
theorem getLsbD_shifted_register {c j : Nat} (hc : c < 24) (hj : j < 24) (c' : Nat) (x : Value) :
    (BitVec.setWidth 576 x <<< (24 * c')).getLsbD (24 * c + j) = (decide (c' = c) && x.getLsbD j) := by
  rw [BitVec.getLsbD_shiftLeft, BitVec.getLsbD_setWidth]
  obtain hlt | rfl | hgt := Nat.lt_trichotomy c' c
  · rw [BitVec.getLsbD_of_ge x _ (by omega)]
    simp [Nat.ne_of_lt hlt]
  · rw [Nat.add_sub_cancel_left]
    simp [show 24 * c' + j < 576 by omega, show j < 576 by omega]
  · simp [Nat.ne_of_gt hgt, show 24 * c + j < 24 * c' by omega]

/-- `RES[c]` stands in bits `24*c + 23 : 24*c` of `res_data` (R28, R91). -/
theorem extractLsb'_resDataOf (res : Vector Value 24) {c : Nat} (hc : c < 24) :
    (resDataOf res).extractLsb' (24 * c) 24 = res[c] := by
  refine BitVec.eq_of_getLsbD_eq fun j hj => ?_
  have hbits : (∃ c' : Fin 24, c'.val = c ∧ res[c'].getLsbD j = true) ↔ res[c].getLsbD j = true :=
    ⟨by rintro ⟨c', rfl, h⟩; exact h, fun h => ⟨⟨c, hc⟩, rfl, h⟩⟩
  rw [BitVec.getLsbD_extractLsb', resDataOf, getLsbD_foldl_or, Bool.eq_iff_iff, ← hbits]
  simp [getLsbD_shifted_register hc hj, hj]

/-- The low 8 bits of `STATUS` leave out `VALID` (R19). -/
theorem extractLsb'_packStatus (valid err : Bool) (cause : CauseCode) (k : FanoutField) :
    (packStatus valid err cause k).extractLsb' 0 8 = BitVec.ofBool err ++ cause ++ k := by
  revert valid err cause k
  decide

/-! ## A command in flight, edge by edge (R89, R94) -/

namespace SignalState

/-- The engine with `w` accepted and `left` edges to go until its effect; with none to go the effect is there. -/
def withCommand (s : SignalState) (w : CommandWord) (left : Nat) : SignalState :=
  settle { s with inFlight := some ⟨w, left⟩ }

theorem withCommand_zero (s : SignalState) (w : CommandWord) :
    s.withCommand w 0 = { s with engine := s.engine.issue w, inFlight := none } := rfl

theorem withCommand_succ_engine (s : SignalState) (w : CommandWord) (left : Nat) :
    (s.withCommand w (left + 1)).engine = s.engine := rfl

theorem withCommand_succ_inFlight (s : SignalState) (w : CommandWord) (left : Nat) :
    (s.withCommand w (left + 1)).inFlight = some ⟨w, left + 1⟩ := rfl

theorem edge_of_rst (latency : CommandWord → Nat) (s : SignalState) {p : PortsIn} (hrst : p.rst = true) :
    s.edge latency p = s.applyReset := if_pos hrst

/-- A command in flight comes one edge nearer, whatever stands on the command port (R94 (b)). -/
theorem edge_of_busy (latency : CommandWord → Nat) {s : SignalState} {p : PortsIn} {f : InFlight} (hrst : p.rst = false)
    (hflight : s.inFlight = some f) : s.edge latency p = s.withCommand f.word (f.left - 1) := by
  simp only [edge, hrst, hflight, Bool.false_eq_true, if_false, withCommand]

/-- A ready engine accepts the word presented, if there is one (R94 (a)). -/
theorem edge_of_ready (latency : CommandWord → Nat) {s : SignalState} {p : PortsIn} (hrst : p.rst = false)
    (hflight : s.inFlight = none) :
    s.edge latency p = if p.cmdValid then s.withCommand p.cmdWord (latency p.cmdWord) else s := by
  simp only [edge, hrst, hflight, Bool.false_eq_true, if_false, withCommand]

theorem edge_withCommand_succ (latency : CommandWord → Nat) (s : SignalState) (w : CommandWord) (left : Nat) {p : PortsIn}
    (hrst : p.rst = false) : (s.withCommand w (left + 1)).edge latency p = s.withCommand w left := by
  rw [edge_of_busy latency hrst (withCommand_succ_inFlight s w left)]
  rfl

theorem edges_withCommand (latency : CommandWord → Nat) (s : SignalState) (w : CommandWord) (ps : List PortsIn) (left : Nat)
    (hrst : ∀ q ∈ ps, q.rst = false) : (s.withCommand w (ps.length + left)).edges latency ps = s.withCommand w left := by
  induction ps with
  | nil => rw [List.length_nil, Nat.zero_add]; rfl
  | cons p ps ih =>
    rw [List.forall_mem_cons] at hrst
    obtain ⟨hp, hps⟩ := hrst
    rw [List.length_cons, Nat.add_right_comm, edges, List.foldl_cons, edge_withCommand_succ latency s w _ hp]
    exact ih hps

/-- Two engines with the same command in flight, if any, and registers that agree. -/
def Agree (s s' : SignalState) : Prop := s.inFlight = s'.inFlight ∧ s.engine.Agree s'.engine

theorem agree_applyReset (s s' : SignalState) : s.applyReset.Agree s'.applyReset :=
  ⟨rfl, Engine.agree_afterReset ..⟩

theorem Agree.withCommand {s s' : SignalState} (h : s.Agree s') (w : CommandWord) : ∀ left,
    (s.withCommand w left).Agree (s'.withCommand w left)
  | 0 => ⟨rfl, h.2.issue w⟩
  | _ + 1 => ⟨rfl, h.2⟩

theorem Agree.edge {s s' : SignalState} (h : s.Agree s') (latency : CommandWord → Nat) (p : PortsIn) :
    (s.edge latency p).Agree (s'.edge latency p) := by
  cases hrst : p.rst with
  | true =>
    rw [edge_of_rst latency s hrst, edge_of_rst latency s' hrst]
    exact agree_applyReset s s'
  | false =>
    have hflight : s'.inFlight = s.inFlight := h.1.symm
    cases hs : s.inFlight with
    | some f =>
      rw [edge_of_busy latency hrst hs, edge_of_busy latency hrst (hflight.trans hs)]
      exact h.withCommand f.word _
    | none =>
      rw [edge_of_ready latency hrst hs, edge_of_ready latency hrst (hflight.trans hs)]
      split
      · exact h.withCommand p.cmdWord _
      · exact h

theorem Agree.edges {s s' : SignalState} (h : s.Agree s') (latency : CommandWord → Nat) (ps : List PortsIn) :
    (s.edges latency ps).Agree (s'.edges latency ps) := by
  induction ps generalizing s s' with
  | nil => exact h
  | cons p ps ih => exact ih (h.edge latency p)

theorem agree_edges_of_rst (latency : CommandWord → Nat) (s s' : SignalState) {p : PortsIn} (hrst : p.rst = true)
    (ps : List PortsIn) : (s.edges latency (p :: ps)).Agree (s'.edges latency (p :: ps)) := by
  rw [edges, edges, List.foldl_cons, List.foldl_cons, edge_of_rst latency s hrst, edge_of_rst latency s' hrst]
  exact (agree_applyReset s s').edges latency ps

end SignalState

end Sys2Proof.Machine

open Sys2Proof Sys2Proof.Machine

/-- Settles O34: a `Reset` clears the flags, and neither a Read nor a word does. -/
theorem resetClearsAndOnlyReset : Obligations.ResetClearsAndOnlyReset := by
  unfold Obligations.ResetClearsAndOnlyReset
  refine ⟨⟨rfl, rfl, rfl⟩, fun s rest hp => ⟨_, step_of_reset hp, rfl, rfl, rfl, State.doReset_pending _,
    State.doReset_reads _, State.doReset_stream _⟩, fun s t hstep hreset => ?_⟩
  obtain ⟨-, rfl⟩ | ⟨rest, hp, -⟩ | ⟨rest, -, rfl⟩ | ⟨w, rest, -, rfl⟩ := step_cases hstep
  · exact ⟨id, fun herr => ⟨herr, rfl⟩⟩
  · exact absurd hp (hreset rest)
  · rw [State.doRead_engine]
    exact ⟨id, fun herr => ⟨herr, rfl⟩⟩
  · exact ⟨fun hvalid => Engine.issue_valid_of_valid hvalid w, fun herr => Engine.issue_record_of_err_eq_true herr w⟩

/-- Settles O38: after a `Reset` the registers agree, and the legal word makes them equal. -/
theorem resultsAreFunctionOfActions : Obligations.ResultsAreFunctionOfActions := by
  unfold Obligations.ResultsAreFunctionOfActions
  rintro acts s s' hreset ⟨w, hmem, hlegal⟩
  obtain ⟨t, hrun, ht⟩ := exists_run_reset_engine s hreset
  obtain ⟨t', hrun', ht'⟩ := exists_run_reset_engine s' hreset
  refine ⟨t, t', hrun, hrun', ?_⟩
  rw [ht, ht']
  exact (Engine.agree_afterReset ..).foldl_issue_eq (List.mem_filterMap.mpr ⟨_, hmem, rfl⟩) hlegal

/-- Settles O40: the second SPLIT overwrites the first, and a Read of a valid result returns the registers. -/
theorem unreadResultIsLost : Obligations.UnreadResultIsLost := by
  unfold Obligations.UnreadResultIsLost
  intro s i i' rest hp
  refine ⟨_, (s.engine.issue (encode i)).split i'.fanout i'.value,
    (run_succ (step_of_issue hp)).trans <| (run_succ (step_of_issue rfl)).trans <|
      (run_succ (step_of_read rfl)).trans <| (run_succ (step_of_read (State.doRead_pending _))).trans (run_zero _),
    State.doRead_pending _, ?_, redistribute_eq_tuple_split _ i'⟩
  have hlast := Engine.split_valid (s.engine.issue (encode i)) i'.fanout i'.value
  simp only [State.doRead_reads, State.doRead_engine, Engine.issue_of_instr _ (decode_encode i'),
    readView_of_valid _ _ _ hlast]

/-- Settles O44: `res_data` holds each register at its place, and the other wires show theirs directly. -/
theorem portsShowRegisters : Obligations.PortsShowRegisters := by
  unfold Obligations.PortsShowRegisters
  intro s
  refine ⟨fun c hc => extractLsb'_resDataOf s.engine.res hc, rfl, rfl, rfl, Option.isNone_iff_eq_none, ?_⟩
  rw [SignalState.outputs_resValid, Bool.and_eq_true, Bool.not_eq_true', SignalState.splitInFlight_eq_false_iff]

/-- Settles O45: `STATUS` at the wires is packed like that of the registers, with `res_valid` in the place of `VALID`. -/
theorem statusAtTheWires : Obligations.StatusAtTheWires := by
  unfold Obligations.StatusAtTheWires
  intro s
  obtain ⟨hvalid, hfields⟩ := packStatus_fields s.outputs.resValid s.outputs.err s.outputs.errCause s.outputs.resK
  refine ⟨⟨hvalid, hfields⟩, fun hnone => ?_, fun f hf hlegal => ⟨hvalid.trans ?_, ?_⟩⟩
  · rw [← SignalState.splitInFlight_eq_false_iff] at hnone
    simp [PortsOut.status, Engine.status, hnone]
  · have hsplit := s.splitInFlight_eq_true_iff.mpr ⟨f, hf, hlegal⟩
    simp [hsplit]
  · exact (extractLsb'_packStatus ..).trans (extractLsb'_packStatus ..).symm

/-- Settles O46: the accepted word comes one edge nearer its effect at each later edge. -/
theorem acceptedCommandCompletes : Obligations.AcceptedCommandCompletes := by
  unfold Obligations.AcceptedCommandCompletes
  intro latency s p ps hready hrst hvalid hps
  have haccept : s.edge latency p = s.withCommand p.cmdWord (latency p.cmdWord) := by
    rw [SignalState.edge_of_ready latency hrst (Option.isNone_iff_eq_none.mp hready), if_pos hvalid]
  have hedges (left : Nat) (h : latency p.cmdWord = ps.length + left) :
      s.edges latency (p :: ps) = s.withCommand p.cmdWord left := by
    rw [SignalState.edges, List.foldl_cons, haccept, h]
    exact s.edges_withCommand latency p.cmdWord ps left hps
  refine ⟨fun hlt => ?_, fun heq => ?_⟩
  · obtain ⟨left, hleft⟩ := Nat.exists_eq_add_of_lt hlt
    have hflight := s.withCommand_succ_inFlight p.cmdWord left
    rw [hedges (left + 1) hleft]
    refine ⟨s.withCommand_succ_engine p.cmdWord left, by simp [hflight], fun hlegal => ?_⟩
    have hsplit := (SignalState.splitInFlight_eq_true_iff _).mpr ⟨_, hflight, hlegal⟩
    simp [hsplit]
  · rw [hedges 0 heq.symm, SignalState.withCommand_zero]
    exact ⟨rfl, rfl⟩

/-- Settles O47: two engines after `rst` agree, every later edge keeps that, and the wires show no more. -/
theorem resetAbandonsCommand : Obligations.ResetAbandonsCommand := by
  unfold Obligations.ResetAbandonsCommand
  intro latency s s' p hrst
  refine ⟨by rw [SignalState.edge_of_rst latency s hrst]; exact ⟨rfl, rfl, rfl, rfl⟩, ?_⟩
  rintro ps t t' rfl rfl
  obtain ⟨hflight, hvalid, herr, hcause, heq⟩ := SignalState.agree_edges_of_rst latency s s' hrst ps
  refine ⟨by simp [hflight], ?_, herr, hcause, hvalid, fun hv => ?_⟩
  · simp [SignalState.splitInFlight, hflight, hvalid]
  · simp [heq hv]

/-- Settles O48: a command in flight goes on whatever the port holds, and only a host action that takes effect at the edge
changes what they show. -/
theorem busyIgnoresAndOutputsStand : Obligations.BusyIgnoresAndOutputsStand := by
  unfold Obligations.BusyIgnoresAndOutputsStand
  refine fun latency s p => ⟨fun hbusy valid word => ?_, fun hnone => ?_⟩
  · obtain ⟨f, hf⟩ := Option.isSome_iff_exists.mp (Option.isNone_eq_false_iff.mp hbusy)
    cases hrst : p.rst with
    | true => rw [SignalState.edge_of_rst latency s hrst]; exact SignalState.edge_of_rst latency s rfl
    | false => rw [SignalState.edge_of_busy latency hrst hf]; exact SignalState.edge_of_busy latency rfl hf
  · obtain ⟨-, hstand⟩ | ⟨hacts, -⟩ | ⟨w, hacts, -⟩ := edge_cases latency s p
    · have hengine : (s.edge latency p).engine = s.engine := congrArg State.engine (hstand [])
      simp [hengine]
    · rw [hnone] at hacts; contradiction
    · rw [hnone] at hacts; contradiction

/-- Settles O29: an issued word has the effect of its instruction, and so has `exec`. -/
theorem stepRunsDecodedInstruction : Obligations.StepRunsDecodedInstruction := by
  unfold Obligations.StepRunsDecodedInstruction
  intro s w rest i hp hi
  rw [step_of_issue hp, exec_eq_split, Engine.issue_of_instr _ hi, State.split]

/-- Settles O35: the logged view agrees with the registers. -/
theorem readReturnsState : Obligations.ReadReturnsState := by
  unfold Obligations.ReadReturnsState
  intro s rest hp
  obtain ⟨hvalid, herr, hcause, heq⟩ := s.engine.agree_readView s.stream s.draws
  exact ⟨_, _, step_of_read hp, State.doRead_engine _, State.doRead_pending _, State.doRead_reads _, hvalid, herr, hcause,
    fun h => heq (hvalid.trans h)⟩

/-- Settles O36: without a pending action there is nothing to take. -/
theorem quiescentWithoutAction : Obligations.QuiescentWithoutAction := by
  unfold Obligations.QuiescentWithoutAction
  intro s hp
  simp only [step, State.nextAction, hp]
end
